-- ==== Sys2Proof/Word.lean ====
section
/-! DEFINITION. The words of the block: the register widths of spec/00_scope.md R10 and spec/10_state.md R23. -/

namespace Sys2Proof

/-- One sample of the data line: `true` is a "set" sample (1), `false` a "clear" one (0) (R16, R70). -/
abbrev Sample := Bool

/-- An identifier byte (R55). -/
abbrev Byte := BitVec 8

/-- A four-bit row value: an accumulator entry, `colx`, a column-parity value (R23). -/
abbrev Nibble := BitVec 4

/-- `cnt` and `ptr`, CNT_W = 9 bits (R10). -/
abbrev Count := BitVec 9

/-- `edge_ms` and `win_ms`, TMR_W = 8 bits (R10). -/
abbrev Timer := BitVec 8

/-- `hdr`, HDR_W = 4 bits (R10). -/
abbrev HdrCount := BitVec 4

/-- `row`, ROWC_W = 4 bits (R10). -/
abbrev RowCount := BitVec 4

/-- `outcome`, OUT_W = 3 bits (R10). It is read whole by the host, so it stays a bit vector (R79). -/
abbrev OutcomeCode := BitVec 3

/-- A host word, 11 bits in the table, held in its two whole bytes (spec/opcode_table.json, log 3). -/
abbrev HostWord := BitVec 16

/-- The five bytes `id[0..4]` (R55). -/
abbrev Ident := Vector Byte 5

/-- The ten entries `nib[0..9]` (R53). -/
abbrev Accumulator := Vector Nibble 10

end Sys2Proof
end

