-- ==== Sys2Proof/Machine/Ports.lean ====
section
/-! DEFINITION. The input ports of one clock cycle (spec/10_state.md R21). They are inputs, not registers. -/

namespace Sys2Proof.Machine

/-- What a reader line shows the block at one rising edge of `clk_i`. `unsettled` stands for a line that changes too
close to the edge, so that the capture may take either value (R120, I12; DESIGN CHOICE, log 5). -/
inductive LineLevel where
  | low
  | high
  | unsettled
  deriving DecidableEq, Repr, Inhabited

/-- The input ports in one cycle, R21 without `clk_i` (a step is an edge of it). -/
structure Inputs where
  /-- `rst_i` -/
  rst : Bool
  /-- `start_i` -/
  start : Bool
  /-- `rfid_clk_i` -/
  rfidClk : LineLevel
  /-- `rfid_data_i` -/
  rfidData : LineLevel
  /-- `ms_tick_i` -/
  msTick : Bool
  /-- `id_idx_i` -/
  idIdx : Byte
  deriving DecidableEq, Repr, Inhabited

/-- All inputs 0, both lines low: what a script gives every input that it does not name (R86). -/
def Inputs.quiet : Inputs :=
  { rst := false, start := false, rfidClk := .low, rfidData := .low, msTick := false, idIdx := 0#8 }

/-! ## The reader's line timing (R241) -/

/-- MODEL'S OWN: the line levels at the last edges, which is what it takes to see that the reader breaks R241
(log 5). -/
structure LineHistory where
  /-- the clock line at the last edge -/
  clk : LineLevel
  /-- the clock line at the edge before that -/
  clkBefore : LineLevel
  /-- the data line at the last edge -/
  data : LineLevel
  /-- the last edge captured the lines: it was no reset edge -/
  captured : Bool
  deriving DecidableEq, Repr

/-- Nothing is known of the lines before: the history in the reset state (log 5). -/
def LineHistory.unknown : LineHistory :=
  { clk := .unsettled, clkBefore := .unsettled, data := .unsettled, captured := false }

/-- The history after one more edge that captures the lines. -/
def LineHistory.push (h : LineHistory) (p : Inputs) : LineHistory :=
  { clk := p.rfidClk, clkBefore := h.clk, data := p.rfidData, captured := true }

/-- The clock line may have risen between two edges with these levels. -/
def mayRise (before now : LineLevel) : Bool := decide (before ≠ .high) && decide (now ≠ .low)

/-- R241 item 1 is broken: the clock phase at the last edge showed at no edge beside it, so it lasted less than two
periods. -/
def LineHistory.shortPhase (h : LineHistory) (p : Inputs) : Bool :=
  decide (h.clk ≠ .unsettled) && decide (h.clkBefore ≠ h.clk) && decide (p.rfidClk ≠ h.clk)

/-- R241 item 2 is broken before the rise: the data line moves within the period before it. -/
def LineHistory.dataSetup (h : LineHistory) (p : Inputs) : Bool :=
  mayRise h.clk p.rfidClk && decide (p.rfidData ≠ h.data)

/-- R241 item 2 is broken after the rise: the data line moves within the two periods after the rise before the last
edge. -/
def LineHistory.dataHold (h : LineHistory) (p : Inputs) : Bool :=
  mayRise h.clkBefore h.clk && decide (p.rfidData ≠ h.data)

end Sys2Proof.Machine
end

