-- ==== Sys2Proof/Config.lean ====
section
/-! DEFINITION. The fixed constants of the block (spec/00_scope.md R8, R9) and its free values.
The constants are "fixed by the protocol" (R8, C7); there are no options (R11). -/

namespace Sys2Proof

/-- `L`, identifier length in bytes (R8). -/
@[simp] abbrev Config.L : Nat := 5
/-- `H`, header length in consecutive set samples (R8). -/
@[simp] abbrev Config.H : Nat := 9
/-- `C`, sample buffer capacity in samples (R8). -/
@[simp] abbrev Config.C : Nat := 256
/-- `M`, minimum sample count (R8, C3). -/
@[simp] abbrev Config.M : Nat := 64
/-- `T_EDGE_MS`, per-edge timeout in milliseconds (R8). -/
@[simp] abbrev Config.tEdgeMs : Nat := 2
/-- The default of the parameter `T_WINDOW_MS` (R9, D9). The machine reads `State.windowMs`, which is this at
reset and which no step changes, so that a claim over all states covers every window budget (I2, log 10). -/
@[simp] abbrev Config.tWindowMsDefault : Nat := 2
/-- `ROW_W`, samples per row (R8). -/
@[simp] abbrev Config.rowW : Nat := 5
/-- `DATA_W`, data or column-parity samples per row (R8). -/
@[simp] abbrev Config.dataW : Nat := 4
/-- `N_ROWS`, data rows (R8). -/
@[simp] abbrev Config.nRows : Nat := 10
/-- `N_TRAIL`, trailing rows (R8). -/
@[simp] abbrev Config.nTrail : Nat := 1
/-- The largest value of the saturating millisecond timers (R10, R123). -/
@[simp] abbrev Config.timerMax : Nat := 255
/-- `IDX_W`, width of the identifier byte index input (R10). -/
@[simp] abbrev Config.idxW : Nat := 8

/-! Outcome codes (spec/30_encoding.md R79). -/

/-- NO_FRAME (R79, R201). -/
@[simp] abbrev OutcomeCode.noFrame : OutcomeCode := 0#3
/-- TIMEOUT (R79, R202). -/
@[simp] abbrev OutcomeCode.timeout : OutcomeCode := 1#3
/-- ROW_PARITY (R79, R203). -/
@[simp] abbrev OutcomeCode.rowParity : OutcomeCode := 2#3
/-- COL_PARITY (R79, R204). -/
@[simp] abbrev OutcomeCode.colParity : OutcomeCode := 3#3
/-- STOP_BIT (R79, R206). -/
@[simp] abbrev OutcomeCode.stopBit : OutcomeCode := 4#3
/-- SUCCESS (R79, R207). -/
@[simp] abbrev OutcomeCode.success : OutcomeCode := 5#3

/-! Free values. None has a body: nothing can be proved of a value of theirs. Each is applied to `State.draw`, the
number of clock edges so far, so that every edge has values of its own (log 6). -/

/-- The inputs of a cycle for which the script holds no event: the host and the reader may do anything (log 1). -/
opaque Config.freeInputs : Nat → Machine.Inputs

/-- What `c1` captures from an unsettled `rfid_clk_i`, or in a clock phase that R241 calls too short ("any value (a
draw)", log 5). -/
opaque Config.freeClkCapture : Nat → Bool

/-- What `d1` captures from an unsettled `rfid_data_i`, or from one that moves where R241 wants it stable (log 5). -/
opaque Config.freeDataCapture : Nat → Bool

/-- `hdr - 1` when `hdr = 0`: R29 keeps `hdr` in 1..9 and R12 has no negative numbers, so the spec states no value.
No run from reset reaches it (log 11). -/
opaque Config.freeHdr : Nat → HdrCount

end Sys2Proof
end

