-- ==== Sys2Proof/Syntax.lean ====
section
/-! DEFINITION. The instructions: one constructor per row of spec/opcode_table.json (R3: the block has no
instruction set; its "instructions" are its control states and its host port operations). -/

namespace Sys2Proof

/-- The eight codes of the 3-bit control state register (spec/30_encoding.md R80), all of them, so that the type is
exactly the register's 3 bits. Software never sees the register as a word. -/
inductive StateName where
  | idle
  | waitHigh
  | waitLow
  | checkCount
  | hdrScan
  | row
  | final
  | unused7
  deriving DecidableEq, Repr

/-- One constructor per row of the opcode table. The first eight are fsm-state rows: the datapath action of one
control state. The others are host-port rows. Their operands are the bits the row leaves free in the host word
{rst_i, start_i, idle, id_idx_i}: `start`, `idle` and the index `idx`. -/
inductive Instr where
  /-- IDLE (R121) -/
  | idle
  /-- WAIT_HIGH (R125) -/
  | waitHigh
  /-- WAIT_LOW (R127) -/
  | waitLow
  /-- CHECK_COUNT (R129) -/
  | checkCount
  /-- HDR_SCAN (R150) -/
  | hdrScan
  /-- ROW (R160) -/
  | row
  /-- FINAL (R180) -/
  | final
  /-- UNUSED_7 (R82) -/
  | unused7
  /-- RESET (R230), `1xxkkkkkkkk` -/
  | reset (start idle : Bool) (idx : Nat)
  /-- CYCLE (R41), `00xkkkkkkkk` -/
  | cycle (idle : Bool) (idx : Nat)
  /-- POLL (R100), `011kkkkkkkk` -/
  | poll (idx : Nat)
  /-- POLL_IGNORED (R101), `010kkkkkkkk` -/
  | pollIgnored (idx : Nat)
  /-- READ_OUTCOME (R103), an observation -/
  | readOutcome
  /-- READ_ID (R104), an observation -/
  | readId
  /-- READ_ID_BYTE (R105), an observation of byte `k` -/
  | readIdByte (k : Nat)
  /-- TAG_EVENT (R106), an observation -/
  | tagEvent
  /-- WAIT_DONE (R102), an observation -/
  | waitDone
  deriving DecidableEq, Repr

end Sys2Proof
end

