-- ==== Sys2Proof/WellFormed.lean ====
section
/-! DEFINITION. Which instruction terms are instructions of the block. -/

namespace Sys2Proof

/-- A byte index fits `id_idx_i`, IDX_W = 8 bits (R10, R21; N15: no larger index exists). -/
def idxOk (k : Nat) : Bool := decide (k < 2 ^ Config.idxW)

/-- The one check on an instruction: its index fits the port. Every other bit of every row is free or fixed. -/
def Instr.wf : Instr → Bool
  | .idle => true
  | .waitHigh => true
  | .waitLow => true
  | .checkCount => true
  | .hdrScan => true
  | .row => true
  | .final => true
  | .unused7 => true
  | .reset _ _ idx => idxOk idx
  | .cycle _ idx => idxOk idx
  | .poll idx => idxOk idx
  | .pollIgnored idx => idxOk idx
  | .readOutcome => true
  | .readId => true
  | .readIdByte k => idxOk k
  | .tagEvent => true
  | .waitDone => true

/-- The check on the parameter `T_WINDOW_MS`: the saturating 8-bit timer must be able to exceed it (R10). -/
def Config.windowOk (windowMs : Nat) : Bool := decide (windowMs ≤ Config.timerMax - 1)

end Sys2Proof
end

