-- ==== Sys2Proof/Decode.lean ====
section
/-! DEFINITION. Decoder and encoder of the two formats of spec/opcode_table.json: the 3-bit state code, in one byte,
and the 11-bit host word, in two bytes, low byte first (the table numbers bit 0 as the least significant) (log 3).
Bits 13..11 of the host packet name the observation the host makes; the table gives its five observation rows no
bits of their own ("combinable with any word"), so this selector is the model's (DESIGN CHOICE, log 3). -/

namespace Sys2Proof

/-- Why a packet is no instruction. -/
inductive DecodeError where
  /-- It has neither one byte nor two. -/
  | length (n : Nat)
  /-- A bit above the row's bits is set. -/
  | highBits
  /-- The observation selector names no observation. -/
  | selector (sel : Nat)
  deriving DecidableEq, Repr

/-- The codes of R80. -/
def StateName.code : StateName → BitVec 3
  | .idle => 0#3
  | .waitHigh => 1#3
  | .waitLow => 2#3
  | .checkCount => 3#3
  | .hdrScan => 4#3
  | .row => 5#3
  | .final => 6#3
  | .unused7 => 7#3

/-- The state a 3-bit code names (R80); R81: "The match is total". -/
def StateName.ofCode (c : BitVec 3) : StateName :=
  match c.toNat with
  | 0 => .idle
  | 1 => .waitHigh
  | 2 => .waitLow
  | 3 => .checkCount
  | 4 => .hdrScan
  | 5 => .row
  | 6 => .final
  | _ => .unused7

/-- The fsm-state row that a control state selects (R81). -/
def StateName.instr : StateName → Instr
  | .idle => .idle
  | .waitHigh => .waitHigh
  | .waitLow => .waitLow
  | .checkCount => .checkCount
  | .hdrScan => .hdrScan
  | .row => .row
  | .final => .final
  | .unused7 => .unused7

/-- The host packet: two clear bits, the observation selector, then the table's host word
{rst_i (bit 10), start_i (bit 9), idle (bit 8), id_idx_i (bits 7:0)}. -/
def hostPacket (sel : BitVec 3) (rst start idle : Bool) (idx : Byte) : HostWord :=
  0#2 ++ (sel ++ (BitVec.ofBool rst ++ (BitVec.ofBool start ++ (BitVec.ofBool idle ++ idx))))

/-- The port rows of R83, from the bits of the word: RESET has `rst_i = 1`; otherwise CYCLE has `start_i = 0`, POLL
has `start_i = 1` in IDLE and POLL_IGNORED has it out of IDLE. -/
def decodePort (rst start idle : Bool) (idx : Nat) : Instr :=
  match rst, start, idle with
  | true, _, _ => .reset start idle idx
  | false, false, _ => .cycle idle idx
  | false, true, true => .poll idx
  | false, true, false => .pollIgnored idx

/-- A host packet: port pattern (selector 0) or observation. An observation row has mask 0, so the bits of the host
word are free in it; READ_ID_BYTE reads its `k` from bits 7..0. -/
def decodeHost (w : HostWord) : Except DecodeError Instr :=
  let idx := (w.extractLsb' 0 8).toNat
  if w.extractLsb' 14 2 ≠ 0#2 then .error .highBits
  else
    match (w.extractLsb' 11 3).toNat with
    | 0 => .ok (decodePort (w.getLsbD 10) (w.getLsbD 9) (w.getLsbD 8) idx)
    | 1 => .ok .readOutcome
    | 2 => .ok .readId
    | 3 => .ok (.readIdByte idx)
    | 4 => .ok .tagEvent
    | 5 => .ok .waitDone
    | n => .error (.selector n)

/-- The decoder, total on any bytes, rejecting by name. -/
def decode : List Byte → Except DecodeError Instr
  | [b] => if b.extractLsb' 3 5 ≠ 0#5 then .error .highBits else .ok (StateName.ofCode (b.extractLsb' 0 3)).instr
  | [lo, hi] => decodeHost (hi ++ lo)
  | bs => .error (.length bs.length)

/-- The two bytes of a host packet, low byte first. -/
def packetBytes (w : HostWord) : List Byte := [w.extractLsb' 0 8, w.extractLsb' 8 8]

/-- The byte of a state code. -/
def codeBytes (n : StateName) : List Byte := [n.code.setWidth 8]

/-- The encoder, from the same tables. The free bits of an observation are written 0. -/
def encode : Instr → List Byte
  | .idle => codeBytes .idle
  | .waitHigh => codeBytes .waitHigh
  | .waitLow => codeBytes .waitLow
  | .checkCount => codeBytes .checkCount
  | .hdrScan => codeBytes .hdrScan
  | .row => codeBytes .row
  | .final => codeBytes .final
  | .unused7 => codeBytes .unused7
  | .reset start idle idx => packetBytes (hostPacket 0#3 true start idle (BitVec.ofNat 8 idx))
  | .cycle idle idx => packetBytes (hostPacket 0#3 false false idle (BitVec.ofNat 8 idx))
  | .poll idx => packetBytes (hostPacket 0#3 false true true (BitVec.ofNat 8 idx))
  | .pollIgnored idx => packetBytes (hostPacket 0#3 false true false (BitVec.ofNat 8 idx))
  | .readOutcome => packetBytes (hostPacket 1#3 false false false 0#8)
  | .readId => packetBytes (hostPacket 2#3 false false false 0#8)
  | .readIdByte k => packetBytes (hostPacket 3#3 false false false (BitVec.ofNat 8 k))
  | .tagEvent => packetBytes (hostPacket 4#3 false false false 0#8)
  | .waitDone => packetBytes (hostPacket 5#3 false false false 0#8)

/-- The bytes of a number of `nbits` bits, low byte first. -/
def bytesOfNat : Nat → Nat → List Byte
  | 0, _ => []
  | n + 1, w => BitVec.ofNat 8 w :: bytesOfNat n (w / 256)

/-- What the decoder reads from an instruction whose table bits are `w`: one byte is the fsm-state format, two the
host-port format. -/
def decodeTableWord (nbits w : Nat) : Option Instr :=
  match decode (bytesOfNat ((nbits + 7) / 8) w) with
  | .ok i => some i
  | .error _ => none

end Sys2Proof
end

