-- ==== Sys2Proof/Machine/State.lean ====
section
/-! DEFINITION. The state of the block (spec/10_state.md R23) with the model's own fields, the reasons a step can
stop, and the state right after reset (spec/70_reset_and_hazards.md R230). -/

namespace Sys2Proof.Machine

/-- An output the host reads without a clock edge (R83, R86 "READ k", 0 cycles). -/
inductive Observation where
  /-- READ_OUTCOME -/
  | outcome
  /-- READ_ID -/
  | ident
  /-- READ_ID_BYTE with `id_idx_i = k` -/
  | idByte (k : Byte)
  /-- TAG_EVENT -/
  | tag
  /-- WAIT_DONE -/
  | done
  deriving DecidableEq, Repr

/-- What comes next from outside: one cycle's inputs, or one reading of an output (log 1, log 2). -/
inductive HostEvent where
  | drive (p : Inputs)
  | observe (o : Observation)
  deriving DecidableEq, Repr

/-- What the host got from one reading (log 4). -/
inductive Seen where
  /-- `outcome_o` (R103) -/
  | outcome (code : OutcomeCode)
  /-- `id_o` (R104) -/
  | ident (value : BitVec 40)
  /-- `id_byte_o` (R105) -/
  | idByte (value : Byte)
  /-- `tag_read_o` (R106) -/
  | tag (pulse : Bool)
  /-- `done_o` and `busy_o` (R102) -/
  | done (pulse busy : Bool)
  deriving DecidableEq, Repr

/-- The sample buffer, the only addressable memory (R13, R50): cells of (index, sample), indices strictly rising,
no cell equal to what an unlisted index reads as (log 8). -/
abbrev Memory := List (Nat × Sample)

/-- Why the machine stops. Both reasons name an array entry that does not exist. No state reached from reset raises
one (R44), and the block itself has no traps (R200). -/
inductive Fault where
  /-- Raised by WAIT_HIGH, HDR_SCAN, ROW and FINAL: a buffer index outside 0..255 (R50). Safe: the machine stops
  where the spec names no entry. -/
  | bufferIndex
  /-- Raised by ROW: accumulator index `9 - row` with `row > 9` (R53). Safe, for the same reason. -/
  | accumulatorIndex
  deriving DecidableEq, Repr

/-- Why the model gives no meaning. -/
inductive Refusal where
  /-- Raised by a refused arm of `exec` only; this model has none. Safe. -/
  | notModelled (mnemonic : String)
  /-- Raised by READ_OUTCOME when the register holds 6 or 7 (I10: "A model given one as a register value refuses
  it"). No rule writes them. Safe. -/
  | reservedOutcome
  /-- Raised by the step when the packet in hand is no instruction; the fetch never gives one. Safe. -/
  | undecodable (e : DecodeError)
  deriving DecidableEq, Repr

/-- The registers of R23, then the input ports of the cycle in hand (R21), then the model's own fields. -/
structure State where
  /-- control state register (R24) -/
  state : StateName
  /-- clock synchronizer, first stage (R25) -/
  c1 : Bool
  /-- clock synchronizer, second stage: the synchronized clock level (R25) -/
  c2 : Bool
  /-- data synchronizer, first stage (R25) -/
  d1 : Bool
  /-- data synchronizer, second stage: the synchronized data level (R25) -/
  d2 : Bool
  /-- samples appended in this poll (R26) -/
  cnt : Count
  /-- sample buffer `buf[0..255]` (R50) -/
  buf : Memory
  /-- `edge_ms` (R27) -/
  edgeMs : Timer
  /-- `win_ms` (R27) -/
  winMs : Timer
  /-- index of the next sample to read (R28) -/
  ptr : Count
  /-- header countdown (R29) -/
  hdr : HdrCount
  /-- data rows accepted in this poll (R30) -/
  row : RowCount
  /-- running column XOR (R31) -/
  colx : Nibble
  /-- nibble accumulator `nib[0..9]` (R32) -/
  nib : Accumulator
  /-- identifier register `id[0..4]` (R33) -/
  id : Ident
  /-- last Outcome code (R33) -/
  outcome : OutcomeCode
  /-- completion pulse (R37) -/
  doneR : Bool
  /-- success pulse (R37) -/
  tagR : Bool
  /-- the values at the input ports in the cycle in hand (R21) -/
  ports : Inputs
  /-- MODEL'S OWN: the line levels at the last edges (R241, log 5) -/
  lines : LineHistory
  /-- MODEL'S OWN: what the host and the reader do next, one event a step (log 1) -/
  script : List HostEvent
  /-- MODEL'S OWN: what the host has read, newest first (log 4) -/
  observed : List Seen
  /-- MODEL'S OWN: clock edges so far, the index of the free values (log 6) -/
  draw : Nat
  /-- MODEL'S OWN: the parameter `T_WINDOW_MS` (R9, log 10); no step changes it -/
  windowMs : Nat
  deriving DecidableEq, Repr

/-- What an exec answers. -/
abbrev Result := Host.Outcome State Fault Refusal

/-- The reset state: the reset column of R23. `buf` "is not reset": all clear here, as R52 allows (DESIGN CHOICE,
log 7). The model's own fields are empty or unknown, and `T_WINDOW_MS` is 2 (R9). -/
def State.reset : State :=
  { state := .idle, c1 := true, c2 := true, d1 := true, d2 := true
    cnt := 0#9, buf := [], edgeMs := 0#8, winMs := 0#8, ptr := 0#9, hdr := 9#4, row := 0#4, colx := 0#4
    nib := #v[0#4, 0#4, 0#4, 0#4, 0#4, 0#4, 0#4, 0#4, 0#4, 0#4]
    id := #v[0#8, 0#8, 0#8, 0#8, 0#8]
    outcome := OutcomeCode.noFrame, doneR := false, tagR := false
    ports := Inputs.quiet, lines := LineHistory.unknown, script := [], observed := [], draw := 0, windowMs := Config.tWindowMsDefault }

end Sys2Proof.Machine
end

