-- ==== Sys2Proof/Machine/Ops.lean ====
section
/-! DEFINITION. The named operations over the arrays and registers (spec/20_memory.md), the clock edge of
spec/10_state.md R41 and the commit of spec/60_exceptions.md R205. -/

namespace Sys2Proof.Machine

/-! ## The sample buffer (R50 to R52) -/

/-- What an index that no cell lists reads as: clear. R52 lets a model give entries that no poll wrote "any value,
for instance all 0" (DESIGN CHOICE, log 7). -/
def Memory.unlisted : Sample := false

/-- The sample at an index, whatever the index. -/
def Memory.get : Memory → Nat → Sample
  | [], _ => Memory.unlisted
  | (j, b) :: rest, i => if i = j then b else Memory.get rest i

/-- The canonical form: indices strictly rising and below C, no cell that says what an unlisted index reads as. -/
def Memory.wf (m : Memory) : Bool :=
  decide (m.Pairwise (fun a b => a.1 < b.1)) &&
    m.all (fun c => decide (c.1 < Config.C) && decide (c.2 ≠ Memory.unlisted))

/-- A cell for index `i`, or none where the value is the unlisted one. -/
def Memory.cell (i : Nat) (b : Sample) : Memory := if b = Memory.unlisted then [] else [(i, b)]

/-- Sets one entry and keeps the canonical form. -/
def Memory.put : Memory → Nat → Sample → Memory
  | [], i, b => Memory.cell i b
  | (j, c) :: rest, i, b =>
    if i < j then Memory.cell i b ++ (j, c) :: rest
    else if i = j then Memory.cell i b ++ rest
    else (j, c) :: Memory.put rest i b

/-- `BufRead(i)` (R50); none for an index that does not exist. -/
def Memory.bufRead (m : Memory) (i : Nat) : Option Sample :=
  if i < Config.C then some (m.get i) else none

/-- `BufWrite(i, b)` (R50); none for an index that does not exist. -/
def Memory.bufWrite (m : Memory) (i : Nat) (b : Sample) : Option Memory :=
  if i < Config.C then some (m.put i b) else none

/-- The buffer that holds a list of samples from index `i` on. -/
def Memory.ofSamplesFrom : Nat → List Sample → Memory
  | _, [] => []
  | i, b :: rest => Memory.cell i b ++ Memory.ofSamplesFrom (i + 1) rest

/-- The buffer that holds a list of samples from index 0 on, earliest first. -/
def Memory.ofSamples (l : List Sample) : Memory := Memory.ofSamplesFrom 0 l

/-- The samples of the current poll, `buf[0..cnt-1]`, earliest first (R26, R51). -/
def State.samples (s : State) : List Sample := (List.range s.cnt.toNat).map s.buf.get

/-! ## The nibble accumulator (R53, R54) -/

/-- The entry the row with counter value `row` is written to, `9 - row` (R54); none below index 0. -/
def nibIndex (row : RowCount) : Option (Fin 10) :=
  if row.toNat ≤ 9 then some (Fin.ofNat 10 (9 - row.toNat)) else none

/-- `NibWrite(j, v)` (R53). -/
def nibWrite (nib : Accumulator) (j : Fin 10) (v : Nibble) : Accumulator := nib.set j.val v j.isLt

/-- XOR of the entries the first `n` accepted rows wrote, `nib[9] ^ ... ^ nib[10-n]` (R44 item 4). -/
def nibXor (nib : Accumulator) : Nat → Nibble
  | 0 => 0#4
  | n + 1 => nibXor nib n ^^^ nib[Fin.ofNat 10 (9 - n)]

/-! ## Counters and timers (R12, R123, R124) -/

/-- A count raised by `k`, on natural numbers (R12, R34). -/
def Count.plus (x : Count) (k : Nat) : Count := BitVec.ofNat 9 (x.toNat + k)

/-- `row + 1` on natural numbers (R160). -/
def rowNext (x : RowCount) : RowCount := BitVec.ofNat 4 (x.toNat + 1)

/-- `hdr - 1` (R150). Below 0 the spec states no value: a free value (log 11). -/
def hdrDown (s : State) : HdrCount :=
  if s.hdr = 0#4 then Config.freeHdr s.draw else BitVec.ofNat 4 (s.hdr.toNat - 1)

/-- `tick_inc(x) = min(x + ms_tick_i, 255)` (R123). -/
def tickInc (tick : Bool) (x : Timer) : Timer := BitVec.ofNat 8 (min (x.toNat + tick.toNat) Config.timerMax)

/-- The timeout condition on given bounds (R124), both "exceeds" read as strictly greater (D7). -/
def timedOutAt (windowMs edgeBoundMs : Nat) (win edge : Timer) : Bool :=
  decide (windowMs < win.toNat) || decide (edgeBoundMs < edge.toNat)

/-- `timed_out` (R124), on the register values at the start of the cycle. -/
def timedOut (s : State) : Bool := timedOutAt s.windowMs Config.tEdgeMs s.winMs s.edgeMs

/-! ## The clock edge (R41) -/

/-- The level a synchronizer's first stage takes from a line; from an unsettled line it takes the draw (R120, log 5). -/
def LineLevel.capture (l : LineLevel) (draw : Bool) : Bool :=
  match l with
  | .low => false
  | .high => true
  | .unsettled => draw

/-- The inputs of a cycle come to the ports. Where they show that the reader broke R241 around the last edge (a phase
of one edge, data that moves after a rise), what that edge captured is a draw, the one of that edge. No rule but R41
reads `c1` and `d1`, and it reads them in this cycle at the earliest (log 5). -/
def State.takeInputs (s : State) (p : Inputs) : State :=
  { s with
    ports := p
    c1 := if s.lines.captured && s.lines.shortPhase p then Config.freeClkCapture (s.draw - 1) else s.c1
    d1 := if s.lines.captured && s.lines.dataHold p then Config.freeDataCapture (s.draw - 1) else s.d1 }

/-- What `d1` captures: the line's level, and a draw where the line moves within the time around a rise in which R241
wants it stable (log 5). -/
def State.dataCapture (s : State) : Bool :=
  if s.lines.dataSetup s.ports || s.lines.dataHold s.ports then Config.freeDataCapture s.draw
  else s.ports.rfidData.capture (Config.freeDataCapture s.draw)

/-- What every non-reset edge does before the state action: the synchronizers move on and the pulses default to 0
(R41, R120, R37). -/
def captureEdge (s : State) : State :=
  { s with
    c1 := s.ports.rfidClk.capture (Config.freeClkCapture s.draw)
    c2 := s.c1
    d1 := s.dataCapture
    d2 := s.d1
    doneR := false
    tagR := false
    lines := s.lines.push s.ports
    draw := s.draw + 1 }

/-- A reset edge: every register takes its reset value but `buf`, which "is not reset" (R230). The model's own
fields and the ports stay, the count of edges goes on, so that two resets do not repeat their draws (log 6), and the
line history takes the levels of this edge too. -/
def resetEdge (s : State) : State :=
  { State.reset with
    buf := s.buf, ports := s.ports, lines := { s.lines.push s.ports with captured := false }, script := s.script, observed := s.observed
    draw := s.draw + 1, windowMs := s.windowMs }

/-- A state action: from the state at the start of the cycle, `old`, which every read sees, and the state that the
edge's common part gives, `new`, to the answer (R13). -/
abbrev Action := State → State → Result

/-- One rising edge of `clk_i` with a given state action (R41). Reset "takes precedence over every state action"
(R230). -/
def clockEdge (act : Action) (s : State) : Result :=
  if s.ports.rst then .next (resetEdge s) else act s (captureEdge s)

/-- The inputs that a host word drives; the other ports keep their values. -/
def State.drive (s : State) (rst start : Bool) (idx : Nat) : State :=
  { s with ports := { s.ports with rst := rst, start := start, idIdx := BitVec.ofNat 8 idx } }

/-! ## The commit (R205), this block's form of taking an exception -/

/-- `commit(o)`: the single mechanism that ends a poll. It records the outcome, raises the pulses and gives control
to IDLE; no other register changes. There is no saved pc or status and no return operation beside it: the host's
next POLL starts a fresh attempt (R208, R209). -/
def commit (o : OutcomeCode) (new : State) : State :=
  { new with outcome := o, doneR := true, tagR := decide (o = OutcomeCode.success), state := .idle }

end Sys2Proof.Machine
end

