-- ==== Sys2Proof/Machine/Operands.lean ====
section
/-! DEFINITION. Operand assembly: rows of five samples (spec/43_row_decoder.md R160, R161) and identifier bytes
(spec/44_frame_validator.md R181, R189; spec/20_memory.md R57, R59). -/

namespace Sys2Proof.Machine

/-- The five samples of one row, earliest first (R73, R75). -/
structure RowSamples where
  s0 : Sample
  s1 : Sample
  s2 : Sample
  s3 : Sample
  s4 : Sample
  deriving DecidableEq, Repr

/-- `{s3, s2, s1, s0}`: the earliest sample is bit 0 (R161). -/
def RowSamples.value (r : RowSamples) : Nibble :=
  BitVec.ofBool r.s3 ++ (BitVec.ofBool r.s2 ++ (BitVec.ofBool r.s1 ++ BitVec.ofBool r.s0))

/-- The XOR of the five samples; set when the row has an odd number of set samples (R162). -/
def RowSamples.parity (r : RowSamples) : Bool := ((((r.s0 ^^ r.s1) ^^ r.s2) ^^ r.s3) ^^ r.s4)

/-- The row at buffer indices `i .. i+4`; none where one of them does not exist. -/
def readRow (m : Memory) (i : Nat) : Option RowSamples :=
  match m.bufRead i, m.bufRead (i + 1), m.bufRead (i + 2), m.bufRead (i + 3), m.bufRead (i + 4) with
  | some s0, some s1, some s2, some s3, some s4 => some ⟨s0, s1, s2, s3, s4⟩
  | _, _, _, _, _ => none

/-- One step of the right-shift realisation of R57: `acc' <- {s, acc[3:1]}`. -/
def shiftIn (acc : Nibble) (s : Sample) : Nibble := BitVec.ofBool s ++ acc.extractLsb' 1 3

/-- Byte from an accumulator pair: `(hi << 4) | lo` (R181). -/
def pairByte (hi lo : Nibble) : Byte := (hi.setWidth 8 <<< 4) ||| lo.setWidth 8

/-- Identifier assembly, `id[k] = (nib[2k+1] << 4) | nib[2k]` (R181). -/
def assemble (nib : Accumulator) : Ident :=
  #v[pairByte nib[1] nib[0], pairByte nib[3] nib[2], pairByte nib[5] nib[4], pairByte nib[7] nib[6],
     pairByte nib[9] nib[8]]

/-- The low nibble of a byte. -/
def lowNibble (b : Byte) : Nibble := b.extractLsb' 0 4

/-- The high nibble of a byte. -/
def highNibble (b : Byte) : Nibble := b.extractLsb' 4 4

/-- The inverse of the assembly, `nib[2k] = id[k][3:0]`, `nib[2k+1] = id[k][7:4]` (R189). -/
def disassemble (id : Ident) : Accumulator :=
  #v[lowNibble id[0], highNibble id[0], lowNibble id[1], highNibble id[1], lowNibble id[2], highNibble id[2],
     lowNibble id[3], highNibble id[3], lowNibble id[4], highNibble id[4]]

end Sys2Proof.Machine
end

