-- ==== Sys2Proof/Machine/FrameValidator.lean ====
section
/-! DEFINITION. The frame validator, column parity validator and identifier register
(spec/44_frame_validator.md): FINAL. -/

namespace Sys2Proof.Machine

/-- The FINAL action, the trailing row (R180): fit, then stop bit, then column parity (R185). -/
def finalAction : Action := fun old new =>
  if old.cnt.toNat < old.ptr.toNat + Config.rowW then .next (commit OutcomeCode.noFrame new)
  else
    match readRow old.buf old.ptr.toNat with
    | none => .fault .bufferIndex
    | some r =>
      if r.s4 then .next (commit OutcomeCode.stopBit new)
      else if old.colx ^^^ r.value ≠ 0#4 then .next (commit OutcomeCode.colParity new)
      else .next (commit OutcomeCode.success { new with id := assemble old.nib })

/-- FINAL (R180), one clock edge. -/
def execFinal (s : State) : Result := clockEdge finalAction s

end Sys2Proof.Machine
end

