-- ==== Sys2Proof/Machine/HeaderDetector.lean ====
section
/-! DEFINITION. The header pattern detector (spec/42_header_detector.md): HDR_SCAN. -/

namespace Sys2Proof.Machine

/-- The HDR_SCAN action, one sample per cycle (R150). -/
def hdrScanAction : Action := fun old new =>
  if old.cnt.toNat ≤ old.ptr.toNat then .next (commit OutcomeCode.noFrame new)
  else
    match old.buf.bufRead old.ptr.toNat with
    | none => .fault .bufferIndex
    | some s =>
      if s = true ∧ old.hdr = 1#4 then
        .next { new with
          ptr := Count.plus old.ptr 1, hdr := BitVec.ofNat 4 Config.H, row := 0#4, colx := 0#4, state := .row }
      else if s = true then .next { new with ptr := Count.plus old.ptr 1, hdr := hdrDown old }
      else .next { new with ptr := Count.plus old.ptr 1, hdr := BitVec.ofNat 4 Config.H }

/-- HDR_SCAN (R150), one clock edge. -/
def execHdrScan (s : State) : Result := clockEdge hdrScanAction s

end Sys2Proof.Machine
end

