-- ==== Sys2Proof/Machine/RowDecoder.lean ====
section
/-! DEFINITION. The row decoder, row parity validator and nibble accumulator (spec/43_row_decoder.md): ROW. -/

namespace Sys2Proof.Machine

/-- The ROW action, one data row per cycle (R160). Exhaustion is tested before parity (R167). -/
def rowAction : Action := fun old new =>
  if old.cnt.toNat < old.ptr.toNat + Config.rowW then .next (commit OutcomeCode.noFrame new)
  else
    match readRow old.buf old.ptr.toNat with
    | none => .fault .bufferIndex
    | some r =>
      if r.parity then .next (commit OutcomeCode.rowParity new)
      else
        match nibIndex old.row with
        | none => .fault .accumulatorIndex
        | some j =>
          .next { new with
            nib := nibWrite old.nib j r.value
            colx := old.colx ^^^ r.value
            ptr := Count.plus old.ptr Config.rowW
            row := rowNext old.row
            state := if old.row = 9#4 then .final else old.state }

/-- ROW (R160), one clock edge. -/
def execRow (s : State) : Result := clockEdge rowAction s

end Sys2Proof.Machine
end

