-- ==== Sys2Proof/Machine/Sampler.lean ====
section
/-! DEFINITION. The activity check and the bit sampler (spec/41_sampler.md): IDLE, WAIT_HIGH, WAIT_LOW and
CHECK_COUNT. -/

namespace Sys2Proof.Machine

/-- The IDLE action: the activity check and the start of sampling (R121). -/
def idleAction : Action := fun old new =>
  if old.ports.start then
    if old.c2 then .next (commit OutcomeCode.noFrame new)
    else .next { new with state := .waitHigh, cnt := 0#9, winMs := 0#8, edgeMs := 0#8 }
  else .next new

/-- The WAIT_HIGH action: wait for the active clock level and take one sample (R125). The timeout wins over the
level (D10); the C-th sample ends sampling at once (D11). -/
def waitHighAction : Action := fun old new =>
  let win := tickInc old.ports.msTick old.winMs
  let edge := tickInc old.ports.msTick old.edgeMs
  if timedOut old then .next { new with winMs := win, edgeMs := edge, state := .checkCount }
  else if old.c2 then
    match old.buf.bufWrite old.cnt.toNat old.d2 with
    | none => .fault .bufferIndex
    | some buf =>
      if old.cnt.toNat + 1 = Config.C then
        .next { new with winMs := win, edgeMs := edge, buf := buf, cnt := Count.plus old.cnt 1, state := .checkCount }
      else
        .next { new with winMs := win, edgeMs := 0#8, buf := buf, cnt := Count.plus old.cnt 1, state := .waitLow }
  else .next { new with winMs := win, edgeMs := edge }

/-- The WAIT_LOW action: wait for the return to the inactive clock level (R127). -/
def waitLowAction : Action := fun old new =>
  let win := tickInc old.ports.msTick old.winMs
  let edge := tickInc old.ports.msTick old.edgeMs
  if timedOut old then .next { new with winMs := win, edgeMs := edge, state := .checkCount }
  else if old.c2 then .next { new with winMs := win, edgeMs := edge }
  else .next { new with winMs := win, edgeMs := 0#8, state := .waitHigh }

/-- The CHECK_COUNT action: the minimum sample count (R129). -/
def checkCountAction : Action := fun old new =>
  if old.cnt.toNat < Config.M then .next (commit OutcomeCode.timeout new)
  else .next { new with ptr := 0#9, hdr := BitVec.ofNat 4 Config.H, state := .hdrScan }

/-- IDLE (R121), one clock edge. -/
def execIdle (s : State) : Result := clockEdge idleAction s

/-- WAIT_HIGH (R125), one clock edge. -/
def execWaitHigh (s : State) : Result := clockEdge waitHighAction s

/-- WAIT_LOW (R127), one clock edge. -/
def execWaitLow (s : State) : Result := clockEdge waitLowAction s

/-- CHECK_COUNT (R129), one clock edge. -/
def execCheckCount (s : State) : Result := clockEdge checkCountAction s

end Sys2Proof.Machine
end

