-- ==== Sys2Proof/Machine/Cycle.lean ====
section
/-! DEFINITION. The dispatch of spec/30_encoding.md R81, the unused state code (R82), the cycle step of
spec/10_state.md R41 and the port operations RESET, CYCLE, POLL and POLL_IGNORED (R83). -/

namespace Sys2Proof.Machine

/-- The action of the unused code 3'd7: to IDLE with no commit (R82). -/
def unused7Action : Action := fun _ new => .next { new with state := .idle }

/-- UNUSED_7 (R82), one clock edge. -/
def execUnused7 (s : State) : Result := clockEdge unused7Action s

/-- The dispatch: exactly one action rule per state code (R80, R81). -/
def stateAction : StateName → Action
  | .idle => idleAction
  | .waitHigh => waitHighAction
  | .waitLow => waitLowAction
  | .checkCount => checkCountAction
  | .hdrScan => hdrScanAction
  | .row => rowAction
  | .final => finalAction
  | .unused7 => unused7Action

/-- R41's `step(S, I)` with the inputs at the ports: one rising edge with the action that `state` selects. -/
def cycleStep (s : State) : Result := clockEdge (stateAction s.state) s

/-- R41's `step(S, I)` with the inputs `p`. -/
def cycleWith (p : Inputs) (s : State) : Result := cycleStep (s.takeInputs p)

/-- One edge for each of a list of inputs. -/
def runCycles : List Inputs → State → Result
  | [], s => .next s
  | p :: rest, s =>
    match cycleWith p s with
    | .next t => runCycles rest t
    | .fault f => .fault f
    | .refused r => .refused r

/-- RESET: a cycle with `rst_i = 1`. "Every other input is ignored in a reset cycle" (R230), so `start` and `idle`
only stand in the word. -/
def execReset (start _idle : Bool) (idx : Nat) (s : State) : Result :=
  clockEdge (stateAction s.state) (s.drive true start idx)

/-- CYCLE: a plain cycle, `rst_i = 0` and `start_i = 0`; the state action runs with no host command (R83, R41). The
word's idle bit is free in this row. -/
def execCycle (_idle : Bool) (idx : Nat) (s : State) : Result :=
  clockEdge (stateAction s.state) (s.drive false false idx)

/-- POLL: a cycle with `rst_i = 0`, `start_i = 1` and `state = IDLE`; "the cycle runs the IDLE action of R121"
(R100). -/
def execPoll (idx : Nat) (s : State) : Result := clockEdge idleAction (s.drive false true idx)

/-- POLL_IGNORED: a cycle with `rst_i = 0`, `start_i = 1` and `state != IDLE`; "the state action of the current
state runs as if `start_i = 0`" (R101). -/
def execPollIgnored (idx : Nat) (s : State) : Result :=
  clockEdge (fun old new => stateAction s.state { old with ports := { old.ports with start := false } } new)
    (s.drive false true idx)

end Sys2Proof.Machine
end

