-- ==== Sys2Proof/Machine/Flags.lean ====
section
/-! DEFINITION. The outputs (spec/10_state.md R36 to R40). The block has no condition codes; these are its status
flags and its read ports (R42). All are functions of the registers, `id_byte_o` of `id_idx_i` too (R22). -/

namespace Sys2Proof.Machine

/-- `busy_o` (R36) -/
def busyO (s : State) : Bool := decide (s.state ≠ .idle)

/-- `done_o` (R37) -/
def doneO (s : State) : Bool := s.doneR

/-- `tag_read_o` (R37) -/
def tagReadO (s : State) : Bool := s.tagR

/-- `outcome_o` (R38) -/
def outcomeO (s : State) : OutcomeCode := s.outcome

/-- `id_o`: byte k at bits [8k+7:8k] (R39) -/
def idO (s : State) : BitVec 40 := s.id[4] ++ (s.id[3] ++ (s.id[2] ++ (s.id[1] ++ s.id[0])))

/-- Byte `k` of the identifier, 8'h00 from 5 on (R40). -/
def identByte (id : Ident) (k : Nat) : Byte := if h : k < Config.L then id[k] else 0#8

/-- `id_byte_o`, for the value at `id_idx_i` (R40) -/
def idByteO (s : State) : Byte := identByte s.id s.ports.idIdx.toNat

/-- The six codes that R79 names; 6 and 7 are reserved (R84). -/
def outcomeNamed (o : OutcomeCode) : Bool := decide (o.toNat ≤ 5)

end Sys2Proof.Machine
end

