-- ==== Sys2Proof/Machine/HostReads.lean ====
section
/-! DEFINITION. The observations (spec/40_host_interface.md R102 to R106). They use no clock edge (R86 "READ k",
0 cycles) and change no register (R64); what the host got is kept in the model's field `observed` (log 2, log 4). -/

namespace Sys2Proof.Machine

/-- The host has read a value. -/
def State.see (s : State) (v : Seen) : State := { s with observed := v :: s.observed }

/-- READ_OUTCOME, `lastOutcome()`: `outcome_o` (R103). A reserved code is refused (I10, log 13). -/
def execReadOutcome (s : State) : Result :=
  if outcomeNamed s.outcome then .next (s.see (.outcome (outcomeO s))) else .refused .reservedOutcome

/-- READ_ID: `id_o` (R104). -/
def execReadId (s : State) : Result := .next (s.see (.ident (idO s)))

/-- READ_ID_BYTE, `identifierByte(k)`: drive `id_idx_i = k` and read `id_byte_o` in the same cycle (R105). -/
def execReadIdByte (k : Nat) (s : State) : Result :=
  let driven := { s with ports := { s.ports with idIdx := BitVec.ofNat 8 k } }
  .next (driven.see (.idByte (idByteO driven)))

/-- TAG_EVENT: `tag_read_o` (R106). -/
def execTagEvent (s : State) : Result := .next (s.see (.tag (tagReadO s)))

/-- WAIT_DONE: `done_o` and `busy_o` (R102). -/
def execWaitDone (s : State) : Result := .next (s.see (.done (doneO s) (busyO s)))

end Sys2Proof.Machine
end

