-- ==== Sys2Proof/Machine/Dispatch.lean ====
section
/-! DEFINITION. The dispatch of the instructions to their meanings: one arm per row of spec/opcode_table.json. -/

namespace Sys2Proof.Machine

def exec (i : Instr) (s : State) : Host.Outcome State Fault Refusal :=
  match i with
  -- fsm-state rows (R80)
  | .idle => Sys2Proof.Machine.execIdle s
  | .waitHigh => Sys2Proof.Machine.execWaitHigh s
  | .waitLow => Sys2Proof.Machine.execWaitLow s
  | .checkCount => Sys2Proof.Machine.execCheckCount s
  | .hdrScan => Sys2Proof.Machine.execHdrScan s
  | .row => Sys2Proof.Machine.execRow s
  | .final => Sys2Proof.Machine.execFinal s
  | .unused7 => Sys2Proof.Machine.execUnused7 s
  -- host-port rows (R83)
  | .reset start idle idx => Sys2Proof.Machine.execReset start idle idx s
  | .cycle idle idx => Sys2Proof.Machine.execCycle idle idx s
  | .poll idx => Sys2Proof.Machine.execPoll idx s
  | .pollIgnored idx => Sys2Proof.Machine.execPollIgnored idx s
  -- observations (R83)
  | .readOutcome => Sys2Proof.Machine.execReadOutcome s
  | .readId => Sys2Proof.Machine.execReadId s
  | .readIdByte k => Sys2Proof.Machine.execReadIdByte k s
  | .tagEvent => Sys2Proof.Machine.execTagEvent s
  | .waitDone => Sys2Proof.Machine.execWaitDone s

end Sys2Proof.Machine
end

