-- ==== Sys2Proof/Machine/Fetch.lean ====
section
/-! DEFINITION. What the next step runs. The block fetches no instructions (spec/20_memory.md R68): the host's next
event gives the cycle's inputs, and the host word of R83 is read off the ports and the IDLE test of `state`
(log 1, log 15). -/

namespace Sys2Proof.Machine

/-- The host word of a cycle, {rst_i, start_i, idle = (state == IDLE), id_idx_i} (R83, opcode table). -/
def hostWord (p : Inputs) (s : State) : HostWord :=
  hostPacket 0#3 p.rst p.start (decide (s.state = .idle)) p.idIdx

/-- The packet of an observation (log 3). -/
def Observation.packet : Observation → HostWord
  | .outcome => hostPacket 1#3 false false false 0#8
  | .ident => hostPacket 2#3 false false false 0#8
  | .idByte k => hostPacket 3#3 false false false k
  | .tag => hostPacket 4#3 false false false 0#8
  | .done => hostPacket 5#3 false false false 0#8

/-- The observation row that an observation event stands for (R83). -/
def Observation.instr : Observation → Instr
  | .outcome => .readOutcome
  | .ident => .readId
  | .idByte k => .readIdByte k.toNat
  | .tag => .tagEvent
  | .done => .waitDone

/-- The next event's packet, and the state with that event taken from the script. A cycle's inputs go to the ports.
With no event left the inputs are free (log 1). -/
def fetch (s : State) : List Byte × State :=
  match s.script with
  | [] =>
    let p := Config.freeInputs s.draw
    (packetBytes (hostWord p s), s.takeInputs p)
  | .drive p :: rest => (packetBytes (hostWord p s), ({ s with script := rest } : State).takeInputs p)
  | .observe o :: rest => (packetBytes o.packet, { s with script := rest })

/-- The state whose next step runs a plain cycle in control state `n`. -/
def State.withAction (s : State) (n : StateName) : State :=
  { s with state := n, script := .drive { s.ports with rst := false, start := false } :: s.script }

/-- The state whose next step is a cycle with the given host word: the control state is made to agree with the
word's idle bit (WAIT_HIGH where it must not be IDLE and is), and the inputs are put first in the script. -/
def State.withPorts (s : State) (rst start idle : Bool) (idx : Nat) : State :=
  let n := if idle then .idle else if s.state = .idle then .waitHigh else s.state
  { s with
    state := n
    script := .drive { s.ports with rst := rst, start := start, idIdx := BitVec.ofNat 8 idx } :: s.script }

/-- The state whose next step is an observation. -/
def State.withObservation (s : State) (o : Observation) : State := { s with script := .observe o :: s.script }

/-- Everything it takes for the next step to run `i` (log 15). -/
def place (s : State) : Instr → State
  | .idle => s.withAction .idle
  | .waitHigh => s.withAction .waitHigh
  | .waitLow => s.withAction .waitLow
  | .checkCount => s.withAction .checkCount
  | .hdrScan => s.withAction .hdrScan
  | .row => s.withAction .row
  | .final => s.withAction .final
  | .unused7 => s.withAction .unused7
  | .reset start idle idx => s.withPorts true start idle idx
  | .cycle idle idx => s.withPorts false false idle idx
  | .poll idx => s.withPorts false true true idx
  | .pollIgnored idx => s.withPorts false true false idx
  | .readOutcome => s.withObservation .outcome
  | .readId => s.withObservation .ident
  | .readIdByte k => s.withObservation (.idByte (BitVec.ofNat 8 k))
  | .tagEvent => s.withObservation .tag
  | .waitDone => s.withObservation .done

end Sys2Proof.Machine
end

