-- ==== Sys2Proof/Machine/Step.lean ====
section
/-! DEFINITION. One step: take the next event, decode its packet, run the instruction. A step is one rising edge of
`clk_i` (spec/10_state.md R20), or one observation, which uses no edge (log 2). -/

namespace Sys2Proof.Machine

/-- One step of the machine. -/
def step (s : State) : Host.Outcome State Fault Refusal :=
  match decode (fetch s).1 with
  | .ok i => exec i (fetch s).2
  | .error e => .refused (.undecodable e)

/-- `s` with the instruction of a table word placed so that the very next step runs it (log 15). A word that the
decoder rejects can be put on no port; then nothing is placed. -/
def State.withFetchWord (s : State) (nbits w : Nat) : State :=
  match decodeTableWord nbits w with
  | some i => place s i
  | none => s

end Sys2Proof.Machine
end

