-- ==== Sys2Proof/Machine/HostProjection.lean ====
section
/-! DEFINITION. The host projections, functions over the outputs that are not hardware (spec/00_scope.md R6;
spec/40_host_interface.md R107, R108). -/

namespace Sys2Proof.Machine

/-- `HEX_BYTE_ORDER`, open (D23): byte 0 first or byte 4 first. An argument, never a chosen value (log 17). -/
inductive HexByteOrder where
  | ascending
  | descending
  deriving DecidableEq, Repr

/-- The indices in the order their bytes are rendered. -/
def HexByteOrder.indices : HexByteOrder → List (Fin 5)
  | .ascending => [0, 1, 2, 3, 4]
  | .descending => [4, 3, 2, 1, 0]

/-- `hexdig(v)`, uppercase (R107). -/
def hexDigit (v : Nibble) : Char :=
  (['0', '1', '2', '3', '4', '5', '6', '7', '8', '9', 'A', 'B', 'C', 'D', 'E', 'F'])[v.toNat]'(by simpa using v.isLt)

/-- `pair(b)`: most-significant nibble first (R107). -/
def hexPair (b : Byte) : List Char := [hexDigit (b.extractLsb' 4 4), hexDigit (b.extractLsb' 0 4)]

/-- The whole string, 2 x L characters (R107). -/
def hexFull (order : HexByteOrder) (id : Ident) : List Char := order.indices.flatMap fun k => hexPair id[k]

/-- The terminator. The source says "null/sentinel-terminated"; the null character here (log 17). -/
def hexTerminator : Char := Char.ofNat 0

/-- `identifierHex(buffer, maxLen)` (R107). `counts` is `HEX_MAXLEN_INCLUDES_TERMINATOR`, open (D23). -/
def identifierHex (order : HexByteOrder) (counts : Bool) (id : Ident) (maxLen : Nat) : List Char :=
  (hexFull order id).take (if counts then maxLen - 1 else maxLen) ++ [hexTerminator]

/-- `identifier(buffer, maxLen)`: `buffer[k] = id[k]` for `k` below `min(maxLen, 5)`; the rest of the caller's buffer
is untouched (R108). -/
def identifierCopy (id : Ident) (buffer : List Byte) (maxLen : Nat) : List Byte :=
  id.toList.take (min maxLen Config.L) ++ buffer.drop (min maxLen Config.L)

end Sys2Proof.Machine
end

