-- ==== Sys2Proof/Machine/Reference.lean ====
section
/-! DEFINITION. What a poll computes, as pure functions of its samples: the parallel header match of
spec/42_header_detector.md R151, and `decode` and the cycle counts of spec/70_reset_and_hazards.md R250, R251.
Statements compare the machine with these; the machine does not use them. -/

namespace Sys2Proof.Machine

/-- The sample at an index of a list (clear past its end, where no rule looks). -/
def sampleAt (l : List Sample) (i : Nat) : Sample := l.getD i false

/-- `s[e-9..e-1]` all set, for `9 <= e` (R151). -/
def headerEndsAt (l : List Sample) (e : Nat) : Bool :=
  decide (Config.H ≤ e) && (List.range Config.H).all fun j => sampleAt l (e - Config.H + j)

/-- The least `e` with `9 <= e <= n` and `s[e-9..e-1]` all set, if there is one (R151). -/
def headerEnd (l : List Sample) : Option Nat := (List.range (l.length + 1)).find? (headerEndsAt l)

/-- The five samples from index `i` on. -/
def rowAt (l : List Sample) (i : Nat) : RowSamples :=
  ⟨sampleAt l i, sampleAt l (i + 1), sampleAt l (i + 2), sampleAt l (i + 3), sampleAt l (i + 4)⟩

/-- How a decode ends (R251): the outcome, the identifier on SUCCESS, and the number of ROW and FINAL cycles it
took. -/
structure DecodeEnd where
  outcome : OutcomeCode
  ident : Option Ident
  rowCycles : Nat
  deriving DecidableEq, Repr

/-- The trailing row at index `i` (R251, last four lines). -/
def decodeTrailing (l : List Sample) (i : Nat) (nib : Accumulator) (x : Nibble) : DecodeEnd :=
  if l.length < i + 5 then ⟨OutcomeCode.noFrame, none, 1⟩
  else if (rowAt l i).s4 then ⟨OutcomeCode.stopBit, none, 1⟩
  else if x ^^^ (rowAt l i).value ≠ 0#4 then ⟨OutcomeCode.colParity, none, 1⟩
  else ⟨OutcomeCode.success, some (assemble nib), 1⟩

/-- The data rows from index `i` on, `left` of them still to come (R251, the loop over r = 10 - left). -/
def decodeRows (l : List Sample) : Nat → Nat → Accumulator → Nibble → DecodeEnd
  | 0, i, nib, x => decodeTrailing l i nib x
  | left + 1, i, nib, x =>
    if l.length < i + 5 then ⟨OutcomeCode.noFrame, none, 1⟩
    else if (rowAt l i).parity then ⟨OutcomeCode.rowParity, none, 1⟩
    else
      let v := (rowAt l i).value
      let rest := decodeRows l left (i + 5) (nibWrite nib (Fin.ofNat 10 left) v) (x ^^^ v)
      { rest with rowCycles := rest.rowCycles + 1 }

/-- An accumulator to start from; `decodeRows` writes every entry before `assemble` reads it. -/
def emptyAccumulator : Accumulator := State.reset.nib

/-- `decode(s)` (R251). -/
def decodeSamples (l : List Sample) : OutcomeCode × Option Ident :=
  if l.length < Config.M then (OutcomeCode.timeout, none)
  else
    match headerEnd l with
    | none => (OutcomeCode.noFrame, none)
    | some e =>
      let r := decodeRows l Config.nRows e emptyAccumulator 0#4
      (r.outcome, r.ident)

/-- The cycles from the first CHECK_COUNT cycle to the commit edge inclusive (R250): CHECK_COUNT 1, HDR_SCAN `e` or
`n + 1`, one per row examined, FINAL 1. -/
def postCycles (l : List Sample) : Nat :=
  if l.length < Config.M then 1
  else
    match headerEnd l with
    | none => 1 + (l.length + 1)
    | some e => 1 + e + (decodeRows l Config.nRows e emptyAccumulator 0#4).rowCycles

end Sys2Proof.Machine
end

