-- ==== Sys2Proof/Machine/Stimulus.lean ====
section
/-! DEFINITION. The wire frame of an identifier (spec/30_encoding.md R71 to R78) and the stimulus notation of the
spec's programs (R86, R87). Notation for scripts; no part of the block. -/

namespace Sys2Proof.Machine

/-- The data rows of an identifier in transmission order, r0 to r9 (R78). -/
def frameRows (id : Ident) : List Nibble :=
  [id[4].extractLsb' 4 4, id[4].extractLsb' 0 4, id[3].extractLsb' 4 4, id[3].extractLsb' 0 4,
   id[2].extractLsb' 4 4, id[2].extractLsb' 0 4, id[1].extractLsb' 4 4, id[1].extractLsb' 0 4,
   id[0].extractLsb' 4 4, id[0].extractLsb' 0 4]

/-- The four bits of a row value, bit 0 first (R73). -/
def nibbleBits (v : Nibble) : List Sample := [v.getLsbD 0, v.getLsbD 1, v.getLsbD 2, v.getLsbD 3]

/-- A data row: four data samples and the even row parity (R73, R74). -/
def rowBits (v : Nibble) : List Sample :=
  nibbleBits v ++ [((v.getLsbD 0 ^^ v.getLsbD 1) ^^ v.getLsbD 2) ^^ v.getLsbD 3]

/-- The column-parity value, the XOR of the row values (R72, R78). -/
def columnParity (rows : List Nibble) : Nibble := rows.foldl (· ^^^ ·) 0#4

/-- The 64-sample frame of an identifier (R78): header, ten data rows, trailing row with a clear stop bit. -/
def frameBits (id : Ident) : List Sample :=
  List.replicate Config.H true ++ (frameRows id).flatMap rowBits ++
    (nibbleBits (columnParity (frameRows id)) ++ [false])

/-- The sample list with one sample changed. -/
def flipSample (l : List Sample) (i : Nat) : List Sample := l.modify i not

/-- The modifiers of `FRAME!` (R87). -/
inductive FrameChange where
  /-- `stop=1` -/
  | stop
  /-- `cp^=v` -/
  | columnParity (v : Nibble)
  /-- `d[r][j]^=1` -/
  | data (r : Fin 10) (j : Fin 4)
  /-- `p[r]^=1` -/
  | rowParity (r : Fin 10)
  deriving DecidableEq, Repr

/-- `FRAME! ...` with one modifier (R87), by the positions of R72. -/
def frameChanged (id : Ident) : FrameChange → List Sample
  | .stop => (frameBits id).set 63 true
  | .columnParity v =>
    [0, 1, 2, 3].foldl (fun l j => if v.getLsbD j then flipSample l (59 + j) else l) (frameBits id)
  | .data r j => flipSample (frameBits id) (9 + 5 * r.val + j.val)
  | .rowParity r => flipSample (frameBits id) (9 + 5 * r.val + 4)

/-- The script commands of R86, but WAITDONE, whose length depends on the run (`waitDone` below). -/
inductive Command where
  /-- `RST` -/
  | rst
  /-- `NOP n` -/
  | nop (n : Nat)
  /-- `START` -/
  | start
  /-- `STARTH` -/
  | startHigh
  /-- `HIGH n` -/
  | high (n : Nat)
  /-- `BIT d` -/
  | bit (d : Sample)
  /-- `BITS s`, and `FRAME` through `frameBits` (R87) -/
  | bits (s : List Sample)
  /-- `TICK n` -/
  | tick (n : Nat)
  /-- `READ k` -/
  | read (k : Byte)
  deriving DecidableEq, Repr

/-- The level that carries a bit on a line: high = 1 (R70). -/
def levelOf (b : Bool) : LineLevel := if b then .high else .low

/-- `BIT d`: clock and data (0,d), (0,d), (1,d), (1,d) (R86). -/
def bitInputs (d : Sample) : List Inputs :=
  let low := { Inputs.quiet with rfidData := levelOf d }
  let high := { Inputs.quiet with rfidClk := .high, rfidData := levelOf d }
  [low, low, high, high]

/-- The inputs of a command's cycles; READ has none (R86). -/
def Command.inputs : Command → List Inputs
  | .rst => [{ Inputs.quiet with rst := true }]
  | .nop n => List.replicate n Inputs.quiet
  | .start => [{ Inputs.quiet with start := true }]
  | .startHigh => [{ Inputs.quiet with start := true, rfidClk := .high }]
  | .high n => List.replicate n { Inputs.quiet with rfidClk := .high }
  | .bit d => bitInputs d
  | .bits s => s.flatMap bitInputs
  | .tick n => List.replicate n { Inputs.quiet with msTick := true }
  | .read _ => []

/-- The events of a command. -/
def Command.events : Command → List HostEvent
  | .read k => [.observe (.idByte k)]
  | c => c.inputs.map .drive

/-- `WAITDONE`: `NOP 1` repeated until the edge after which `done_o = 1` (R86). `fuel` bounds the search; none means
that no such edge came within it (a hang is kept, R244, log 22). -/
def waitDone : Nat → State → Option State
  | 0, _ => none
  | fuel + 1, s =>
    match cycleWith Inputs.quiet s with
    | .next t => if t.doneR then some t else waitDone fuel t
    | .fault _ => none
    | .refused _ => none

end Sys2Proof.Machine
end

