-- ==== Sys2Proof/Safety.lean ====
section
/-! DEFINITION. What a legal state is (spec/10_state.md R44), which registers still matter in a state (R43, R52), and
the duties of host and reader (spec/70_reset_and_hazards.md R233, R241). Statements use these terms. -/

namespace Sys2Proof.Machine

/-- A poll is sampling. -/
def sampling (s : State) : Prop := s.state = .waitHigh ∨ s.state = .waitLow

/-- A poll reads its samples. -/
def decoding (s : State) : Prop := s.state = .hdrScan ∨ s.state = .row ∨ s.state = .final

/-- The poll has found its header. -/
def inFrame (s : State) : Prop := s.state = .row ∨ s.state = .final

/-- The five samples that ROW or FINAL reads in this cycle (R160, R180). -/
def rowOf (s : State) : RowSamples :=
  ⟨s.buf.get s.ptr.toNat, s.buf.get (s.ptr.toNat + 1), s.buf.get (s.ptr.toNat + 2), s.buf.get (s.ptr.toNat + 3),
   s.buf.get (s.ptr.toNat + 4)⟩

/-- The outcome that a non-reset cycle commits, if it commits one: the causes of R201 (1 to 4), R202, R203, R204,
R206 and R207, each in the state that can raise it, in the order of R167 and R185. -/
def pollOutcome (s : State) : Option OutcomeCode :=
  match s.state with
  | .idle => if s.ports.start = true ∧ s.c2 = true then some OutcomeCode.noFrame else none
  | .waitHigh => none
  | .waitLow => none
  | .checkCount => if s.cnt.toNat < Config.M then some OutcomeCode.timeout else none
  | .hdrScan => if s.cnt.toNat ≤ s.ptr.toNat then some OutcomeCode.noFrame else none
  | .row =>
    if s.cnt.toNat < s.ptr.toNat + 5 then some OutcomeCode.noFrame
    else if (rowOf s).parity then some OutcomeCode.rowParity
    else none
  | .final =>
    if s.cnt.toNat < s.ptr.toNat + 5 then some OutcomeCode.noFrame
    else if (rowOf s).s4 then some OutcomeCode.stopBit
    else if s.colx ^^^ (rowOf s).value ≠ 0#4 then some OutcomeCode.colParity
    else some OutcomeCode.success
  | .unused7 => none

/-- The reset column of R23: what `t`, the state after a reset edge from `s`, holds. `buf` is not reset. The model's
own fields stay, but for the count of edges (log 6) and the line history (log 5). -/
structure AtResetColumn (s t : State) : Prop where
  control : t.state = .idle
  synchronizer : t.c1 = true ∧ t.c2 = true ∧ t.d1 = true ∧ t.d2 = true
  counts : t.cnt = 0#9 ∧ t.ptr = 0#9 ∧ t.row = 0#4 ∧ t.hdr = 9#4 ∧ t.colx = 0#4
  timers : t.edgeMs = 0#8 ∧ t.winMs = 0#8
  nibbles : ∀ j : Fin 10, t.nib[j] = 0#4
  bytes : ∀ k : Fin 5, t.id[k] = 0#8
  lastOutcome : t.outcome = 0#3
  pulses : t.doneR = false ∧ t.tagR = false
  buffer : t.buf = s.buf
  history : t.lines = { s.lines.push s.ports with captured := false }
  own : t.script = s.script ∧ t.observed = s.observed ∧ t.windowMs = s.windowMs ∧ t.draw = s.draw + 1

/-- No reset cycle among the inputs. -/
def noReset (ps : List Inputs) : Prop := ∀ p ∈ ps, p.rst = false

/-- The invariants of every reachable state: R44 items 1 to 4, the register ranges of R26, R29 and R30, the reserved
codes of R84, R82, the timers of R130, the pulses of R37 and R205, and the buffer's canonical form (log 8). -/
structure Legal (s : State) : Prop where
  /-- R82: code 3'd7 is unreachable. -/
  stateUsed : s.state ≠ .unused7
  /-- R84: the reserved outcome codes are never written. -/
  outcomeNamed : s.outcome.toNat ≤ 5
  /-- The buffer is in its canonical form. -/
  bufCanonical : s.buf.wf = true
  /-- R44 item 1. -/
  cntBound : s.cnt.toNat ≤ Config.C
  /-- R44 item 1 and R130. -/
  samplingBounds : sampling s → s.cnt.toNat < Config.C ∧ s.edgeMs.toNat ≤ s.winMs.toNat
  /-- R44 item 2. -/
  ptrBound : decoding s → s.ptr.toNat ≤ s.cnt.toNat ∧ Config.M ≤ s.cnt.toNat
  /-- R29: 1 ≤ `hdr` ≤ H. -/
  hdrRange : 1 ≤ s.hdr.toNat ∧ s.hdr.toNat ≤ Config.H
  /-- R30: `row` ≤ N_ROWS. -/
  rowBound : s.row.toNat ≤ Config.nRows
  /-- R44 item 3. -/
  rowInRow : s.state = .row → s.row.toNat ≤ 9
  /-- R44 item 3. -/
  rowInFinal : s.state = .final → s.row.toNat = 10
  /-- R44 item 4. -/
  colxIsXor : inFrame s → s.colx = nibXor s.nib s.row.toNat
  /-- R205: a pulse stands beside IDLE only. -/
  doneIdle : s.doneR = true → s.state = .idle
  /-- R106, R205: the success pulse comes with the completion pulse and SUCCESS. -/
  tagSuccess : s.tagR = true → s.doneR = true ∧ s.outcome = OutcomeCode.success

/-- Two states that agree on everything a rule can still read (R43, R44 items 5 and 6, R52): all that persists and all
that is outside, and, of the registers that are transient in a poll, those the current state has already written.
Buffer entries at or above `cnt` and accumulator entries that no row of this poll has written may differ. -/
structure LiveEq (s t : State) : Prop where
  state : s.state = t.state
  synchronizer : s.c1 = t.c1 ∧ s.c2 = t.c2 ∧ s.d1 = t.d1 ∧ s.d2 = t.d2
  snapshot : s.id = t.id ∧ s.outcome = t.outcome
  pulses : s.doneR = t.doneR ∧ s.tagR = t.tagR
  outside : s.ports = t.ports ∧ s.lines = t.lines ∧ s.script = t.script ∧ s.observed = t.observed ∧ s.draw = t.draw ∧
    s.windowMs = t.windowMs
  cnt : s.state ≠ .idle → s.cnt = t.cnt
  samples : s.state ≠ .idle → ∀ i, i < s.cnt.toNat → s.buf.get i = t.buf.get i
  timers : sampling s → s.edgeMs = t.edgeMs ∧ s.winMs = t.winMs
  ptr : decoding s → s.ptr = t.ptr
  hdr : s.state = .hdrScan → s.hdr = t.hdr
  rows : inFrame s → s.row = t.row ∧ s.colx = t.colx
  nibbles : inFrame s → ∀ j : Fin 10, 10 ≤ j.val + s.row.toNat → s.nib[j] = t.nib[j]

/-- Every step a run takes is safe: the machine answers a next state (R200: no failure of a poll traps). -/
def stepsOn (s : State) : Prop := ∃ t, step s = .next t

/-- The level of a line is a level (no draw). -/
def LineLevel.settled (l : LineLevel) : Bool := decide (l ≠ .unsettled)

/-- The reader's duty of R241 over the coming cycles, given the lines' history: no line unsettled, and no violation of
item 1 or 2 seen at any of their edges. -/
def readerKeepsTiming : LineHistory → List Inputs → Bool
  | _, [] => true
  | h, p :: rest =>
    p.rfidClk.settled && p.rfidData.settled && !h.shortPhase p && !h.dataSetup p && !h.dataHold p &&
      readerKeepsTiming (h.push p) rest

/-- The host's duty before the first POLL: two edges without reset and start after the last reset edge (R233, R240). -/
def hostWaitsAfterReset : List Inputs → Bool
  | p :: q :: _ => !p.rst && !p.start && !q.rst && !q.start
  | _ => false

end Sys2Proof.Machine
end

