-- ==== Sys2Proof/Certificates/Slice0/Obligations.lean ====
section
/-! DEFINITION. The statements for the provers. `exec n.instr s` is one clock edge with the action of control state
`n`; `captureEdge s` is `s` after the part of R41 that every non-reset edge does (statement
SynchronizerRunsInEveryCycle says what that is; the values it leaves in `c1` and `d1` are in the model's form, log 5). -/

open Sys2Proof Sys2Proof.Machine

/-! ## Reset -/

/-- R230, with the reset column of R23, for the RESET row and for every state action in a cycle with `rst_i = 1`; and
what the outputs show in the reset cycle and after it. (That the model's own fields stay is the model's: log 6.) -/
def Obligations.ResetTakesTheResetColumn : Prop :=
  (∀ (start idle : Bool) (idx : Nat) (s : State),
    ∃ t, exec (.reset start idle idx) s = .next t ∧ AtResetColumn s t) ∧
  (∀ (n : StateName) (s : State), s.ports.rst = true → ∃ t, exec n.instr s = .next t ∧ AtResetColumn s t) ∧
  (∀ (s : State) (p : Inputs), p.rst = true →
    (busyO { s with ports := p } = busyO s ∧ doneO { s with ports := p } = doneO s ∧
      tagReadO { s with ports := p } = tagReadO s ∧ outcomeO { s with ports := p } = outcomeO s ∧
      idO { s with ports := p } = idO s) ∧
    ∃ t, cycleWith p s = .next t ∧ AtResetColumn (s.takeInputs p) t ∧
      busyO t = false ∧ doneO t = false ∧ tagReadO t = false ∧ outcomeO t = 0#3 ∧ idO t = 0#40 ∧
      ∀ k, identByte t.id k = 0#8)

/-- R232: what the host sees after reset. The values are those of R23. -/
def Obligations.ResetStateShowsNoPollAndNoTag : Prop :=
  busyO State.reset = false ∧ doneO State.reset = false ∧ tagReadO State.reset = false ∧
  outcomeO State.reset = 0#3 ∧ idO State.reset = 0#40 ∧ ∀ k, identByte State.reset.id k = 0#8

/-- The reset state meets the invariants of R44. Its empty buffer is the model's choice (log 7). -/
def Obligations.ResetStateIsLegal : Prop := Legal State.reset

/-- R240: after a reset edge the next two cycles see `c2 = 1`, so a POLL in either commits NO_FRAME whatever the
lines do; after two edges `c2` is the line as it was two edges earlier, where that clock phase is not too short (R241,
D28: a capture in a too short phase may take any value). When a phase is too short is read from the levels at the edges,
which is the model's choice (log 5), so the last clause says less than R240's last sentence. -/
def Obligations.PollWithinTwoCyclesOfResetIsRejected : Prop :=
  ∀ (r s : State) (p q : Inputs), AtResetColumn r s → p.rst = false → q.rst = false →
    (p.start = true → ∃ t, cycleWith p s = .next t ∧ t.state = .idle ∧ t.outcome = 0#3 ∧ t.doneR = true) ∧
    (q.start = true →
      ∃ t, runCycles [p, q] s = .next t ∧ t.state = .idle ∧ t.outcome = 0#3 ∧ t.doneR = true) ∧
    (∀ t, cycleWith p s = .next t → t.c2 = true) ∧
    (∀ t, runCycles [p, q] s = .next t → (s.lines.push p).shortPhase q = false →
      (p.rfidClk = .high → t.c2 = true) ∧ (p.rfidClk = .low → t.c2 = false))

/-! ## The invariants -/

/-- R44 items 1 to 4 with the ranges of R26, R28 to R31, R82, R84, R130: every step keeps them, whatever the host and
the reader do. -/
def Obligations.EveryStepKeepsLegalStates : Prop :=
  ∀ s t : State, Legal s → step s = .next t → Legal t

/-- R84 "No encoding traps", R200: from a legal state every step answers a next state. -/
def Obligations.LegalStatesNeverStop : Prop := ∀ s : State, Legal s → stepsOn s

/-- R43, R44 items 5 and 6, R52: registers left over from an earlier poll, buffer entries at or above `cnt` and
accumulator entries not yet written never change what the block does. -/
def Obligations.LeftoverRegistersNeverMatter : Prop :=
  ∀ s t : State, Legal s → Legal t → LiveEq s t →
    ∃ s' t', step s = .next s' ∧ step t = .next t' ∧ LiveEq s' t'

/-! ## Decoding, and which instruction a step runs -/

/-- Decode and encode agree, for every instruction and every operand its encoding admits. -/
def Obligations.DecodeOfEncodeIsTheInstruction : Prop :=
  ∀ i : Instr, i.wf = true → decode (encode i) = .ok i

/-- The other way: a packet that decodes to a state code or a port pattern is the one the encoder writes. (An
observation's row has free bits, which the encoder writes 0.) -/
def Obligations.EncodeOfDecodeIsThePacket : Prop :=
  (∀ (bs : List Byte) (n : StateName), decode bs = .ok n.instr → encode n.instr = bs) ∧
  (∀ (bs : List Byte) (rst start idle : Bool) (k : Nat), decode bs = .ok (decodePort rst start idle k) →
    encode (decodePort rst start idle k) = bs)

/-- The rows of the opcode table, by their masks and match values (R80, R83): the 3-bit state codes and the 11-bit
host words. -/
def Obligations.TableRowsDecodeByMaskAndMatch : Prop :=
  (∀ c : BitVec 3, decodeTableWord 8 c.toNat = some (StateName.ofCode c).instr ∧ (StateName.ofCode c).code = c) ∧
  (∀ w : BitVec 11,
    (w &&& 0x400#11 = 0x400#11 →
      decodeTableWord 16 w.toNat = some (.reset (w.getLsbD 9) (w.getLsbD 8) (w.extractLsb' 0 8).toNat)) ∧
    (w &&& 0x600#11 = 0x000#11 →
      decodeTableWord 16 w.toNat = some (.cycle (w.getLsbD 8) (w.extractLsb' 0 8).toNat)) ∧
    (w &&& 0x700#11 = 0x300#11 → decodeTableWord 16 w.toNat = some (.poll (w.extractLsb' 0 8).toNat)) ∧
    (w &&& 0x700#11 = 0x200#11 → decodeTableWord 16 w.toNat = some (.pollIgnored (w.extractLsb' 0 8).toNat)))

/-- Words written out from the encodings: all eight codes of R80, and host words of R83. The observation's selector (bits 13..11) is the model's
(log 3). -/
def Obligations.WrittenOutWordsDecode : Prop :=
  decode [0b00000000#8] = .ok .idle ∧ decode [0b00000001#8] = .ok .waitHigh ∧
  decode [0b00000010#8] = .ok .waitLow ∧ decode [0b00000011#8] = .ok .checkCount ∧
  decode [0b00000100#8] = .ok .hdrScan ∧ decode [0b00000101#8] = .ok .row ∧
  decode [0b00000110#8] = .ok .final ∧ decode [0b00000111#8] = .ok .unused7 ∧
  decode [0b00000000#8, 0b00000100#8] = .ok (.reset false false 0) ∧
  decode [0b00000011#8, 0b00000001#8] = .ok (.cycle true 3) ∧
  decode [0b00101010#8, 0b00000011#8] = .ok (.poll 42) ∧
  decode [0b11111111#8, 0b00000010#8] = .ok (.pollIgnored 255) ∧
  decode [0b00000100#8, 0b00011000#8] = .ok (.readIdByte 4) ∧
  decode [0b00001000#8] = .error .highBits ∧
  decode [0b00000000#8, 0b01000000#8] = .error .highBits ∧
  decode [0b00000000#8, 0b00110000#8] = .error (.selector 6) ∧
  decode [] = .error (.length 0)

/-- A step runs the instruction that the packet of the next event decodes to, on the state with that event taken and
a cycle's inputs at the ports (takeInputs); the packet of a cycle is the host word of R83, with its idle bit read off `state`, and
always decodes. With no event left the inputs are free (log 1). -/
def Obligations.StepRunsTheDecodedInstruction : Prop :=
  (∀ (s : State) (i : Instr), decode (fetch s).1 = .ok i → step s = exec i (fetch s).2) ∧
  (∀ (s : State) (p : Inputs) (rest : List HostEvent), s.script = .drive p :: rest →
    step s = exec (decodePort p.rst p.start (decide (s.state = .idle)) p.idIdx.toNat)
      (({ s with script := rest } : State).takeInputs p)) ∧
  (∀ (s : State) (o : Observation) (rest : List HostEvent), s.script = .observe o :: rest →
    step s = exec o.instr { s with script := rest }) ∧
  (∀ s : State, s.script = [] →
    step s = step { s with script := [.drive (Config.freeInputs s.draw)] })

/-- R81, R24: in a cycle without reset and without a start request, the step is the action of the row that the state
register selects, and the match of codes to rows is total and exact. -/
def Obligations.StepRunsTheActionOfTheControlState : Prop :=
  (∀ c : BitVec 3, ∃ n : StateName, n.code = c ∧ ∀ m : StateName, m.code = c → m = n) ∧
  (∀ (s : State) (p : Inputs) (rest : List HostEvent),
    s.script = .drive p :: rest → p.rst = false → p.start = false →
      step s = exec s.state.instr (({ s with script := rest } : State).takeInputs p))

/-- The port rows RESET, CYCLE, POLL and POLL_IGNORED, as the step decodes them, are together exactly R41's
`step(S, I)`: reset, or synchronizers, pulses and the one action that `state` selects. -/
def Obligations.PortOperationsAreTheCycleStep : Prop :=
  ∀ (s : State) (p : Inputs) (rest : List HostEvent),
    s.script = .drive p :: rest → step s = cycleWith p { s with script := rest }

/-- Placing an instruction makes the very next step run it (log 15): the packet of a placed host-port row is the
row's, and every placed row is run by the step. -/
def Obligations.PlacedInstructionRunsNext : Prop :=
  ∀ (s : State) (i : Instr), i.wf = true →
    step (place s i) = exec i (fetch (place s i)).2 ∧
    ((∀ n : StateName, i ≠ n.instr) → decode (fetch (place s i)).1 = .ok i)

/-! ## What every cycle does -/

/-- R120 and R37's default: in every non-reset cycle, whatever the control state, each synchronizer moves one place,
and in cycles that keep R241 a level at one edge is in the second stage after the next edge. That `c1` and `d1` hold the
level right after the edge is the model's choice (log 5): where only the next cycle shows that R241 is broken (a short
phase, data that moves after a rise), the draw replaces it when that cycle's inputs come, before any rule reads it
(statement ReaderTimingViolationMakesTheCaptureADraw). -/
def Obligations.SynchronizerRunsInEveryCycle : Prop :=
  (∀ (i : Instr) (s t : State),
    ((∃ n : StateName, i = n.instr) ∧ s.ports.rst = false ∨ (∃ b k, i = .cycle b k) ∨ (∃ k, i = .poll k) ∨
      ∃ k, i = .pollIgnored k) →
    exec i s = .next t →
      t.c2 = s.c1 ∧ t.d2 = s.d1 ∧
      (s.ports.rfidClk = .low → t.c1 = false) ∧ (s.ports.rfidClk = .high → t.c1 = true) ∧
      (s.lines.dataSetup s.ports = false → s.lines.dataHold s.ports = false →
        (s.ports.rfidData = .low → t.d1 = false) ∧ (s.ports.rfidData = .high → t.d1 = true))) ∧
  (∀ (s t : State) (p q : Inputs), p.rst = false → q.rst = false → readerKeepsTiming s.lines [p, q] = true →
    runCycles [p, q] s = .next t →
    (p.rfidClk = .low → t.c2 = false) ∧ (p.rfidClk = .high → t.c2 = true) ∧
    (p.rfidData = .low → t.d2 = false) ∧ (p.rfidData = .high → t.d2 = true))

/-- R241, R120, D28, in the model's form (log 5): a capture the reader's timing spoils is a free value, so that nothing
is known of what `c2` or `d2` shows of it: the clock in a phase that lasts less than two periods or on an unsettled
line, the data where it moves from one period before a rise until two periods after it or is unsettled. The machine
goes on. -/
def Obligations.ReaderTimingViolationMakesTheCaptureADraw : Prop :=
  ∀ (s : State) (p q : Inputs), Legal s → p.rst = false → q.rst = false →
    ∃ t, runCycles [p, q] s = .next t ∧
      ((p.rfidClk = .unsettled ∨ (s.lines.push p).shortPhase q = true) →
        t.c2 = Config.freeClkCapture s.draw) ∧
      ((p.rfidData = .unsettled ∨ s.lines.dataSetup p = true ∨ s.lines.dataHold p = true ∨
          (s.lines.push p).dataHold q = true) →
        t.d2 = Config.freeDataCapture s.draw) ∧
      (p.rfidClk = .low ∨ p.rfidClk = .high → (s.lines.push p).shortPhase q = false →
        t.c2 = decide (p.rfidClk = .high))

/-- R241 items 1 and 2 on the levels at consecutive edges (log 5): a high or low phase that shows at one edge only;
data that moves between the edges on both sides of a rise, or between the edge after the rise and the next. Where the
clock does not rise, data may move. -/
def Obligations.ReaderTimingIsTwoPeriodPhasesAndStableData : Prop :=
  ∀ (h : LineHistory) (p q : Inputs), p.rfidClk = .low ∨ p.rfidClk = .high →
    ((h.push p).shortPhase q = true ↔ h.clk ≠ p.rfidClk ∧ q.rfidClk ≠ p.rfidClk) ∧
    (h.clk = .low → p.rfidClk = .high →
      (h.dataSetup p = true ↔ p.rfidData ≠ h.data) ∧ ((h.push p).dataHold q = true ↔ q.rfidData ≠ p.rfidData)) ∧
    (p.rfidClk = .low ∨ h.clk = .high → h.dataSetup p = false ∧ (h.push p).dataHold q = false)

/-- R205 with the causes of R201 to R204, R206 and R207: a cycle with a cause ends the poll: the outcome, the pulses,
IDLE, the identifier on SUCCESS, and nothing else but what every cycle does. -/
def Obligations.CommitEndsThePollAndChangesNothingElse : Prop :=
  ∀ (p : Inputs) (s : State) (o : OutcomeCode), p.rst = false → s.cnt.toNat ≤ 256 →
    pollOutcome (s.takeInputs p) = some o →
      cycleWith p s = .next
        { captureEdge (s.takeInputs p) with
          outcome := o, doneR := true, tagR := decide (o = 5#3), state := .idle
          id := if o = 5#3 then assemble s.nib else s.id }

/-- R37, R42, R111: a non-reset cycle that commits nothing leaves `outcome` and `id` as they were and both pulses
low. -/
def Obligations.CyclesWithoutCommitKeepTheOutputs : Prop :=
  ∀ (p : Inputs) (s t : State), p.rst = false → pollOutcome (s.takeInputs p) = none →
    cycleWith p s = .next t →
      t.outcome = s.outcome ∧ t.id = s.id ∧ t.doneR = false ∧ t.tagR = false

/-- R184, R44 item 7: the identifier changes only in a reset edge (R230), or in the FINAL cycle that commits SUCCESS, and then
all five bytes at once. -/
def Obligations.IdentifierChangesOnlyWithSuccess : Prop :=
  ∀ s t : State, step s = .next t → t.id ≠ s.id →
    ((fetch s).2.ports.rst = true ∧ t.ports.rst = true ∧ t.state = .idle ∧ t.outcome = 0#3 ∧ t.doneR = false ∧
      ∀ k : Fin 5, t.id[k] = 0#8) ∨
    (s.state = .final ∧ t.state = .idle ∧ t.outcome = 5#3 ∧ t.doneR = true ∧ t.tagR = true ∧
      t.id = assemble s.nib)

/-- R111: while a poll runs, the outputs show the previous poll's results. -/
def Obligations.OutputsHoldWhileThePollRuns : Prop :=
  ∀ (ps : List Inputs) (s t : State), noReset ps → s.state ≠ .idle → runCycles ps s = .next t →
    (∀ k u, k ≤ ps.length → runCycles (ps.take k) s = .next u → u.state ≠ .idle) →
      outcomeO t = outcomeO s ∧ idO t = idO s ∧ ∀ k, identByte t.id k = identByte s.id k

/-- R51: the one write to the sample buffer is WAIT_HIGH's append at `cnt`; every other entry reads as before. -/
def Obligations.BufferIsAppendOnly : Prop :=
  ∀ s t : State, Legal s → step s = .next t →
    (∀ i, i ≠ s.cnt.toNat → t.buf.get i = s.buf.get i) ∧
    (t.buf ≠ s.buf → s.state = .waitHigh ∧ t.cnt.toNat = s.cnt.toNat + 1 ∧ t.buf.get s.cnt.toNat = s.d2)

/-! ## The state actions -/

/-- R121: IDLE. -/
def Obligations.IdleChecksActivityAndStartsSampling : Prop :=
  ∀ s : State, s.ports.rst = false →
    (s.ports.start = false → exec .idle s = .next (captureEdge s)) ∧
    (s.ports.start = true → s.c2 = true →
      exec .idle s =
        .next { captureEdge s with outcome := 0#3, doneR := true, tagR := false, state := .idle }) ∧
    (s.ports.start = true → s.c2 = false →
      exec .idle s =
        .next { captureEdge s with state := .waitHigh, cnt := 0#9, winMs := 0#8, edgeMs := 0#8 })

/-- R125: WAIT_HIGH, with the timers of R123 and the timeout of R124 written out. (`cnt` above 255, which no run
reaches: statement MissingEntriesStopTheModel.) -/
def Obligations.WaitHighTakesOneSample : Prop :=
  ∀ s : State, s.ports.rst = false →
    let win := BitVec.ofNat 8 (min (s.winMs.toNat + s.ports.msTick.toNat) 255)
    let edge := BitVec.ofNat 8 (min (s.edgeMs.toNat + s.ports.msTick.toNat) 255)
    let late := s.windowMs < s.winMs.toNat ∨ 2 < s.edgeMs.toNat
    (late → exec .waitHigh s =
      .next { captureEdge s with winMs := win, edgeMs := edge, state := .checkCount }) ∧
    (¬late → s.c2 = false → exec .waitHigh s = .next { captureEdge s with winMs := win, edgeMs := edge }) ∧
    (¬late → s.c2 = true → s.cnt.toNat < 255 → exec .waitHigh s =
      .next { captureEdge s with
        winMs := win, edgeMs := 0#8, buf := s.buf.put s.cnt.toNat s.d2
        cnt := BitVec.ofNat 9 (s.cnt.toNat + 1), state := .waitLow }) ∧
    (¬late → s.c2 = true → s.cnt.toNat = 255 → exec .waitHigh s =
      .next { captureEdge s with
        winMs := win, edgeMs := edge, buf := s.buf.put 255 s.d2, cnt := 256#9, state := .checkCount })

/-- R127: WAIT_LOW. -/
def Obligations.WaitLowWaitsForTheInactiveLevel : Prop :=
  ∀ s : State, s.ports.rst = false →
    let win := BitVec.ofNat 8 (min (s.winMs.toNat + s.ports.msTick.toNat) 255)
    let edge := BitVec.ofNat 8 (min (s.edgeMs.toNat + s.ports.msTick.toNat) 255)
    let late := s.windowMs < s.winMs.toNat ∨ 2 < s.edgeMs.toNat
    (late → exec .waitLow s =
      .next { captureEdge s with winMs := win, edgeMs := edge, state := .checkCount }) ∧
    (¬late → s.c2 = true → exec .waitLow s = .next { captureEdge s with winMs := win, edgeMs := edge }) ∧
    (¬late → s.c2 = false → exec .waitLow s =
      .next { captureEdge s with winMs := win, edgeMs := 0#8, state := .waitHigh })

/-- R129: CHECK_COUNT. -/
def Obligations.CheckCountWantsSixtyFourSamples : Prop :=
  ∀ s : State, s.ports.rst = false →
    (s.cnt.toNat < 64 → exec .checkCount s =
      .next { captureEdge s with outcome := 1#3, doneR := true, tagR := false, state := .idle }) ∧
    (64 ≤ s.cnt.toNat → exec .checkCount s =
      .next { captureEdge s with ptr := 0#9, hdr := 9#4, state := .hdrScan })

/-- R150: HDR_SCAN. (An index above 255 and a countdown at 0, which no run reaches: statement
MissingEntriesStopTheModel.) -/
def Obligations.HdrScanCountsConsecutiveSetSamples : Prop :=
  ∀ s : State, s.ports.rst = false →
    let next := BitVec.ofNat 9 (s.ptr.toNat + 1)
    (s.cnt.toNat ≤ s.ptr.toNat → exec .hdrScan s =
      .next { captureEdge s with outcome := 0#3, doneR := true, tagR := false, state := .idle }) ∧
    (s.ptr.toNat < s.cnt.toNat → s.ptr.toNat < 256 → s.buf.get s.ptr.toNat = false → exec .hdrScan s =
      .next { captureEdge s with ptr := next, hdr := 9#4 }) ∧
    (s.ptr.toNat < s.cnt.toNat → s.ptr.toNat < 256 → s.buf.get s.ptr.toNat = true → s.hdr = 1#4 →
      exec .hdrScan s =
      .next { captureEdge s with ptr := next, hdr := 9#4, row := 0#4, colx := 0#4, state := .row }) ∧
    (s.ptr.toNat < s.cnt.toNat → s.ptr.toNat < 256 → s.buf.get s.ptr.toNat = true → 1 < s.hdr.toNat →
      exec .hdrScan s =
      .next { captureEdge s with ptr := next, hdr := BitVec.ofNat 4 (s.hdr.toNat - 1) })

/-- R160: ROW, fit before parity (R167), on the five samples `rowOf s` at `ptr`. (A row past index 255 or a row
counter above 9, which no run reaches: statement MissingEntriesStopTheModel.) -/
def Obligations.RowTakesFiveSamples : Prop :=
  ∀ s : State, s.ports.rst = false →
    let v := (rowOf s).value
    let odd := (rowOf s).parity
    let fits := s.ptr.toNat + 5 ≤ s.cnt.toNat
    (¬fits → exec .row s =
      .next { captureEdge s with outcome := 0#3, doneR := true, tagR := false, state := .idle }) ∧
    (fits → s.ptr.toNat + 4 < 256 → odd = true → exec .row s =
      .next { captureEdge s with outcome := 2#3, doneR := true, tagR := false, state := .idle }) ∧
    (fits → s.ptr.toNat + 4 < 256 → odd = false → s.row.toNat ≤ 9 → exec .row s =
      .next { captureEdge s with
        nib := nibWrite s.nib (Fin.ofNat 10 (9 - s.row.toNat)) v, colx := s.colx ^^^ v
        ptr := BitVec.ofNat 9 (s.ptr.toNat + 5), row := BitVec.ofNat 4 (s.row.toNat + 1)
        state := if s.row.toNat = 9 then .final else s.state })

/-- R163, R54: where a row's value goes, entry by entry. -/
def Obligations.AccumulatorFillsBackToFront : Prop :=
  ∀ (nib : Accumulator) (r : Nat) (v : Nibble) (j : Fin 10), r ≤ 9 →
    (nibWrite nib (Fin.ofNat 10 (9 - r)) v)[j] = if j.val = 9 - r then v else nib[j]

/-- R180: FINAL, in the order of R185, on the five samples `rowOf s` at `ptr`. (A row past index 255, which no run
reaches: statement MissingEntriesStopTheModel.) -/
def Obligations.FinalChecksStopBitThenColumns : Prop :=
  ∀ s : State, s.ports.rst = false →
    let cpv := (rowOf s).value
    let stop := (rowOf s).s4
    let fits := s.ptr.toNat + 5 ≤ s.cnt.toNat
    (¬fits → exec .final s =
      .next { captureEdge s with outcome := 0#3, doneR := true, tagR := false, state := .idle }) ∧
    (fits → s.ptr.toNat + 4 < 256 → stop = true → exec .final s =
      .next { captureEdge s with outcome := 4#3, doneR := true, tagR := false, state := .idle }) ∧
    (fits → s.ptr.toNat + 4 < 256 → stop = false → s.colx ^^^ cpv ≠ 0#4 → exec .final s =
      .next { captureEdge s with outcome := 3#3, doneR := true, tagR := false, state := .idle }) ∧
    (fits → s.ptr.toNat + 4 < 256 → stop = false → s.colx ^^^ cpv = 0#4 → exec .final s =
      .next { captureEdge s with
        outcome := 5#3, doneR := true, tagR := true, state := .idle
        id := #v[s.nib[1] ++ s.nib[0], s.nib[3] ++ s.nib[2], s.nib[5] ++ s.nib[4], s.nib[7] ++ s.nib[6],
          s.nib[9] ++ s.nib[8]] })

/-- THE MODEL'S CHOICE, in states that no run reaches: an index that no entry of an array has stops the model (log 8,
log 12), and a header countdown that is at 0 already goes on with some value (log 11), of which nothing is said. -/
def Obligations.MissingEntriesStopTheModel : Prop :=
  ∀ s : State, s.ports.rst = false →
    let fits := s.ptr.toNat + 5 ≤ s.cnt.toNat
    (timedOut s = false → s.c2 = true → 256 ≤ s.cnt.toNat → exec .waitHigh s = .fault .bufferIndex) ∧
    (s.ptr.toNat < s.cnt.toNat → 256 ≤ s.ptr.toNat → exec .hdrScan s = .fault .bufferIndex) ∧
    (s.ptr.toNat < s.cnt.toNat → s.ptr.toNat < 256 → s.buf.get s.ptr.toNat = true → s.hdr = 0#4 →
      ∃ h, exec .hdrScan s =
        .next { captureEdge s with ptr := BitVec.ofNat 9 (s.ptr.toNat + 1), hdr := h }) ∧
    (fits → 256 ≤ s.ptr.toNat + 4 → exec .row s = .fault .bufferIndex ∧ exec .final s = .fault .bufferIndex) ∧
    (fits → s.ptr.toNat + 4 < 256 → (rowOf s).parity = false → 9 < s.row.toNat →
      exec .row s = .fault .accumulatorIndex)

/-- R82: the unused code goes to IDLE with no commit, and no step from another state enters it. -/
def Obligations.UnusedCodeGoesToIdle : Prop :=
  (∀ s : State, s.ports.rst = false → exec .unused7 s = .next { captureEdge s with state := .idle }) ∧
  (∀ s t : State, s.state ≠ .unused7 → step s = .next t → t.state ≠ .unused7)

/-! ## The host operations -/

/-- R41, R83: CYCLE runs the action of the control state with `rst_i = 0` and `start_i = 0`, and from a legal state it
answers a next state. -/
def Obligations.CycleRunsTheStateAction : Prop :=
  ∀ (s : State) (idle : Bool) (idx : Nat), Legal s →
    ∃ t, exec (.cycle idle idx) s = .next t ∧
      exec s.state.instr
        { s with ports := { s.ports with rst := false, start := false, idIdx := BitVec.ofNat 8 idx } } = .next t

/-- R100: POLL in IDLE commits NO_FRAME at once or enters WAIT_HIGH with a fresh window. -/
def Obligations.PollStartsOneAttempt : Prop :=
  ∀ (s : State) (idx : Nat), s.state = .idle →
    let u := captureEdge
      { s with ports := { s.ports with rst := false, start := true, idIdx := BitVec.ofNat 8 idx } }
    (s.c2 = true → exec (.poll idx) s =
      .next { u with outcome := 0#3, doneR := true, tagR := false, state := .idle }) ∧
    (s.c2 = false → exec (.poll idx) s =
      .next { u with state := .waitHigh, cnt := 0#9, winMs := 0#8, edgeMs := 0#8 })

/-- R101: out of IDLE a start request changes nothing: POLL_IGNORED does what CYCLE does (but for the level at the
port itself), which is also what the state action does with `start_i = 1` at the port. -/
def Obligations.StartIsIgnoredWhileBusy : Prop :=
  ∀ (s : State) (idx : Nat), Legal s → s.state ≠ .idle →
    ∃ t, exec (.cycle false idx) s = .next t ∧
      exec (.pollIgnored idx) s = .next { t with ports := { t.ports with start := true } } ∧
      exec s.state.instr
        { s with ports := { s.ports with rst := false, start := true, idIdx := BitVec.ofNat 8 idx } } =
          .next { t with ports := { t.ports with start := true } }

/-- R103, and I10 for the reserved codes: READ_OUTCOME gives `outcome_o` and changes no register; a reserved code,
which no rule writes, is refused (log 13). -/
def Obligations.ReadOutcomeGivesTheLastOutcome : Prop :=
  ∀ s : State,
    (s.outcome.toNat ≤ 5 → exec .readOutcome s = .next { s with observed := .outcome s.outcome :: s.observed }) ∧
    (5 < s.outcome.toNat → exec .readOutcome s = .refused .reservedOutcome)

/-- R104: READ_ID gives all five bytes, byte `k` at bits 8k+7..8k, and changes no register. -/
def Obligations.ReadIdGivesTheWholeIdentifier : Prop :=
  ∀ s : State, ∃ v : BitVec 40,
    exec .readId s = .next { s with observed := .ident v :: s.observed } ∧
    ∀ k : Fin 5, v.extractLsb' (8 * k.val) 8 = s.id[k]

/-- R105, R40: READ_ID_BYTE gives byte `k`, or 0 from 5 on, and changes no register; it drives `id_idx_i`. -/
def Obligations.ReadIdByteGivesOneByteOrZero : Prop :=
  ∀ (s : State) (k : Nat), k < 256 → ∃ v : Byte,
    exec (.readIdByte k) s =
      .next { s with
        ports := { s.ports with idIdx := BitVec.ofNat 8 k }, observed := .idByte v :: s.observed } ∧
    (∀ h : k < 5, v = s.id[k]) ∧ (5 ≤ k → v = 0#8)

/-- R106 and R102: TAG_EVENT gives `tag_read_o`, WAIT_DONE gives `done_o` and `busy_o`; neither changes a register. -/
def Obligations.EventReadsGiveThePulses : Prop :=
  ∀ s : State,
    exec .tagEvent s = .next { s with observed := .tag s.tagR :: s.observed } ∧
    exec .waitDone s = .next { s with observed := .done s.doneR (decide (s.state ≠ .idle)) :: s.observed }

/-- R106: the success pulse is up in exactly the one cycle after a SUCCESS commit edge, with `done_o`; no other outcome
raises it, and the next cycle, if it commits nothing at once, drops both. -/
def Obligations.TagPulseLastsOneCycle : Prop :=
  ∀ (s t : State) (p : Inputs), p.rst = false → cycleWith p s = .next t →
    (t.tagR = true ↔ pollOutcome (s.takeInputs p) = some 5#3) ∧
    (t.doneR = true ↔ ∃ o, pollOutcome (s.takeInputs p) = some o) ∧
    (t.doneR = true → ∀ (q : Inputs) (u : State), q.rst = false →
      (q.start = false ∨ t.c2 = false) → cycleWith q t = .next u → u.doneR = false ∧ u.tagR = false)

/-- R36 to R39: the outputs as functions of the registers. -/
def Obligations.OutputsAreFunctionsOfTheRegisters : Prop :=
  ∀ s : State, (busyO s = true ↔ s.state ≠ .idle) ∧ (doneO s = true ↔ s.doneR = true) ∧
    (tagReadO s = true ↔ s.tagR = true) ∧ outcomeO s = s.outcome ∧
    (∀ k : Fin 5, (idO s).extractLsb' (8 * k.val) 8 = s.id[k]) ∧
    (∀ h : s.ports.idIdx.toNat < 5, idByteO s = s.id[s.ports.idIdx.toNat]) ∧
    (5 ≤ s.ports.idIdx.toNat → idByteO s = 0#8)

/-! ## Timers -/

/-- R123: how the timers move: in a sampling cycle both count the tick and saturate at 255, but the edge timer is 0
after a cycle that restarts the wait; in every other non-reset cycle neither moves, but at a poll start. -/
def Obligations.TimersCountTicksOnlyWhileSampling : Prop :=
  ∀ (p : Inputs) (s t : State), p.rst = false → cycleWith p s = .next t →
    (sampling s → t.winMs.toNat = min (s.winMs.toNat + p.msTick.toNat) 255 ∧
      (sampling t → t.state ≠ s.state → t.edgeMs = 0#8) ∧
      (t.state = s.state ∨ t.state = .checkCount →
        t.edgeMs.toNat = min (s.edgeMs.toNat + p.msTick.toNat) 255)) ∧
    (¬sampling s → ¬sampling t → t.winMs = s.winMs ∧ t.edgeMs = s.edgeMs) ∧
    (¬sampling s → sampling t → t.winMs = 0#8 ∧ t.edgeMs = 0#8)

/-- R128: sampling ends in exactly one of two ways, and every sample taken stays. -/
def Obligations.SamplingEndsByTimeoutOrFullBuffer : Prop :=
  ∀ (p : Inputs) (s t : State), p.rst = false → sampling s → cycleWith p s = .next t → ¬sampling t →
    t.state = .checkCount ∧
    ((timedOut s = true ∧ t.cnt = s.cnt ∧ t.buf = s.buf) ∨
      (timedOut s = false ∧ s.state = .waitHigh ∧ s.cnt.toNat = 255 ∧ t.cnt.toNat = 256 ∧
        t.buf = s.buf.put 255 s.d2))

/-- R130: while the window budget is at most the per-edge bound, as it is with the default 2 and 2, the per-edge term
never ends sampling before the window term does. -/
def Obligations.EdgeTimeoutNeverComesFirst : Prop :=
  ∀ s : State, Legal s → sampling s → s.windowMs ≤ 2 →
    (timedOut s = true ↔ s.windowMs < s.winMs.toNat)

/-- R100, R250: ticks end sampling: within `T_WINDOW_MS + 1` counted ticks and one more cycle a sampling poll has
reached CHECK_COUNT, whatever the reader does. -/
def Obligations.TicksEndSampling : Prop :=
  ∀ (ps : List Inputs) (p : Inputs) (s : State), Legal s → sampling s → Config.windowOk s.windowMs = true →
    noReset (ps ++ [p]) → s.windowMs + 1 ≤ ps.countP (fun q => q.msTick) →
      ∃ k t, k ≤ ps.length + 1 ∧ runCycles ((ps ++ [p]).take k) s = .next t ∧ t.state = .checkCount

/-- R244: without ticks a stopped reader clock leaves the block waiting for ever; the hang is kept, for a clock that
stays low and for one that stays high. The line's level at the last edge is not the other one, so that the first cycle
shows no too short phase (R241 as log 5 reads it). -/
def Obligations.StoppedClockWithoutTicksHangs : Prop :=
  ∀ (ps : List Inputs) (s : State), (∀ p ∈ ps, p.rst = false ∧ p.msTick = false) → timedOut s = false →
    (s.state = .waitHigh → s.c1 = false → s.c2 = false → s.lines.clk ≠ .high → (∀ p ∈ ps, p.rfidClk = .low) →
      ∃ t, runCycles ps s = .next t ∧ t.state = .waitHigh ∧ t.cnt = s.cnt ∧ t.outcome = s.outcome) ∧
    (s.state = .waitLow → s.c1 = true → s.c2 = true → s.lines.clk ≠ .low → (∀ p ∈ ps, p.rfidClk = .high) →
      ∃ t, runCycles ps s = .next t ∧ t.state = .waitLow ∧ t.cnt = s.cnt ∧ t.outcome = s.outcome)

/-! ## Rows, nibbles and bytes -/

/-- R57, R161: four right shifts, from any start, give the row value, and sample `j` is its bit `j`. -/
def Obligations.RowValueIsFourRightShifts : Prop :=
  ∀ (r : RowSamples) (acc : Nibble),
    shiftIn (shiftIn (shiftIn (shiftIn acc r.s0) r.s1) r.s2) r.s3 = r.value ∧
    r.value.getLsbD 0 = r.s0 ∧ r.value.getLsbD 1 = r.s1 ∧ r.value.getLsbD 2 = r.s2 ∧ r.value.getLsbD 3 = r.s3

/-- R74, R162: the parity check passes exactly when the count of set samples is even. -/
def Obligations.RowParityIsEvenCount : Prop :=
  ∀ r : RowSamples, r.parity = false ↔ [r.s0, r.s1, r.s2, r.s3, r.s4].count true % 2 = 0

/-- R181, R189: byte `k` is (nib[2k+1] << 4) | nib[2k], and the assembly and its inverse undo each other. -/
def Obligations.IdentifierAssemblyIsInvertible : Prop :=
  (∀ (nib : Accumulator) (k : Fin 5),
    (assemble nib)[k] =
      (nib[2 * k.val + 1].setWidth 8 <<< 4) ||| (nib[2 * k.val].setWidth 8 : Byte)) ∧
  (∀ (nib : Accumulator) (k : Fin 5),
    nib[2 * k.val] = (assemble nib)[k].extractLsb' 0 4 ∧ nib[2 * k.val + 1] = (assemble nib)[k].extractLsb' 4 4) ∧
  (∀ nib : Accumulator, disassemble (assemble nib) = nib) ∧
  (∀ id : Ident, assemble (disassemble id) = id)

/-- R183: in a legal FINAL cycle whose trailing row fits and whose stop bit is clear, the poll succeeds exactly when
the trailing value and all ten nibbles XOR to 0, and reports COL_PARITY otherwise. -/
def Obligations.ColumnParityCoversAllElevenRows : Prop :=
  ∀ s : State, Legal s → s.state = .final → s.ports.rst = false → s.ptr.toNat + 5 ≤ s.cnt.toNat →
    (rowOf s).s4 = false →
    let x := (rowOf s).value ^^^ s.nib[0] ^^^ s.nib[1] ^^^ s.nib[2] ^^^ s.nib[3] ^^^ s.nib[4] ^^^ s.nib[5] ^^^
      s.nib[6] ^^^ s.nib[7] ^^^ s.nib[8] ^^^ s.nib[9]
    ∃ t, exec .final s = .next t ∧
      (x = 0#4 → t.outcome = 5#3 ∧ t.id = assemble s.nib) ∧ (x ≠ 0#4 → t.outcome = 3#3 ∧ t.id = s.id)

/-! ## Whole polls -/

/-- R151: the scan finds exactly the parallel match, in exactly its number of cycles. -/
def Obligations.HeaderScanIsTheParallelMatch : Prop :=
  ∀ (s : State) (ps : List Inputs), s.state = .hdrScan → s.ptr = 0#9 → s.hdr = 9#4 → s.cnt.toNat ≤ 256 →
    noReset ps →
    (∀ e, headerEnd s.samples = some e →
      (ps.length < e → ∃ t, runCycles ps s = .next t ∧ t.state = .hdrScan) ∧
      (ps.length = e → ∃ t, runCycles ps s = .next t ∧ t.state = .row ∧ t.ptr.toNat = e ∧ t.row = 0#4 ∧
        t.colx = 0#4 ∧ t.cnt = s.cnt ∧ t.buf = s.buf ∧ t.outcome = s.outcome ∧ t.id = s.id)) ∧
    (headerEnd s.samples = none →
      (ps.length ≤ s.cnt.toNat → ∃ t, runCycles ps s = .next t ∧ t.state = .hdrScan) ∧
      (ps.length = s.cnt.toNat + 1 → ∃ t, runCycles ps s = .next t ∧ t.state = .idle ∧ t.outcome = 0#3 ∧
        t.doneR = true ∧ t.tagR = false ∧ t.id = s.id))

/-- R251, R250: from CHECK_COUNT the machine commits `decode` of its samples after exactly the counted cycles,
whatever the inputs (short of reset), and no output changes before. -/
def Obligations.PollCommitsDecodeOfItsSamples : Prop :=
  ∀ (s : State) (ps : List Inputs), s.state = .checkCount → s.cnt.toNat ≤ 256 → noReset ps →
    (ps.length < postCycles s.samples →
      ∃ t, runCycles ps s = .next t ∧ t.state ≠ .idle ∧ t.outcome = s.outcome ∧ t.id = s.id) ∧
    (ps.length = postCycles s.samples →
      ∃ t, runCycles ps s = .next t ∧ t.state = .idle ∧ t.doneR = true ∧
        t.outcome = (decodeSamples s.samples).1 ∧ t.id = (decodeSamples s.samples).2.getD s.id ∧
        t.tagR = decide ((decodeSamples s.samples).1 = 5#3))

/-- R250: at most `cnt + 2`, so at most C + 2 = 258, cycles from CHECK_COUNT to the commit edge. -/
def Obligations.PostSamplingTakesAtMostTwoMoreCyclesThanSamples : Prop :=
  ∀ l : List Sample, postCycles l ≤ l.length + 2

/-- R78, R72, R188, R251: the frame of an identifier, after any clear samples and before any samples at all, decodes
to SUCCESS with that identifier. -/
def Obligations.FrameOfAnIdentifierDecodesToIt : Prop :=
  ∀ (id : Ident) (before : Nat) (rest : List Sample),
    decodeSamples (List.replicate before false ++ frameBits id ++ rest) = (5#3, some id)

/-- R168, R182, R183: one changed data, parity or stop sample of a valid frame (not a header sample, 0 to 8): ROW_PARITY in a data row, COL_PARITY in a column-parity
position, STOP_BIT at the stop bit; never SUCCESS. -/
def Obligations.ChangedDataParityOrStopSampleIsDetected : Prop :=
  ∀ (id : Ident) (rest : List Sample) (i : Nat),
    (9 ≤ i → i < 59 → decodeSamples (flipSample (frameBits id) i ++ rest) = (2#3, none)) ∧
    (59 ≤ i → i < 63 → decodeSamples (flipSample (frameBits id) i ++ rest) = (3#3, none)) ∧
    (i = 63 → decodeSamples (flipSample (frameBits id) i ++ rest) = (4#3, none))

/-- R125, R126, R51 over whole bit strings: bits driven on the lines as R86 drives them, from a settled low clock and
without ticks, are exactly the samples the poll takes, in order. No too short phase stands open at the start (R241 as log 5
reads it). -/
def Obligations.SamplerTakesExactlyTheDrivenBits : Prop :=
  ∀ (l : List Sample) (s : State), s.state = .waitHigh → s.c1 = false → s.c2 = false → s.lines.clk ≠ .high →
    s.cnt = 0#9 → s.buf.wf = true → timedOut s = false → l ≠ [] → l.length ≤ 256 →
      ∃ t, runCycles (l.flatMap bitInputs ++ [Inputs.quiet]) s = .next t ∧ t.samples = l ∧
        t.state = (if l.length = 256 then .checkCount else .waitLow) ∧ t.outcome = s.outcome ∧ t.id = s.id

/-- The source's testable statement S3, with the window budget 2 (R9 asks for the value used): a poll of a valid
frame, sampled within the window, succeeds with its identifier and pulses both events. No too short phase stands open at the
start (R241 as log 5 reads it). -/
def Obligations.PollOfAValidFrameSucceeds : Prop :=
  ∀ (id : Ident) (s : State), s.state = .idle → s.c1 = false → s.c2 = false → s.lines.clk ≠ .high →
    s.buf.wf = true → s.windowMs = 2 →
      ∃ t, runCycles ({ Inputs.quiet with start := true } :: (frameBits id).flatMap bitInputs ++
          List.replicate 3 { Inputs.quiet with msTick := true } ++ List.replicate 22 Inputs.quiet) s = .next t ∧
        t.state = .idle ∧ t.outcome = 5#3 ∧ t.id = id ∧ t.doneR = true ∧ t.tagR = true

/-! ## Host projections -/

/-- R108: the copy writes `min(maxLen, 5)` bytes and leaves the rest of the caller's buffer. -/
def Obligations.IdentifierCopyWritesAtMostFiveBytes : Prop :=
  ∀ (id : Ident) (buffer : List Byte) (maxLen k : Nat),
    (identifierCopy id buffer maxLen)[k]? =
      if h : k < min maxLen 5 then some (id[k]'(Nat.lt_of_lt_of_le h (Nat.min_le_right _ _))) else buffer[k]?

/-- R107: the full hex string has ten characters, each byte's most-significant nibble first, bytes in the given order;
`maxLen` truncates it, and one terminator ends it. The two open parameters stay arguments, and which character the
terminator is, is the model's choice (log 17). -/
def Obligations.HexStringIsTenDigitsTruncated : Prop :=
  ∀ (order : HexByteOrder) (counts : Bool) (id : Ident) (maxLen : Nat),
    (hexFull order id).length = 10 ∧
    (∀ k : Fin 5, ∀ b : Fin 5, order.indices[k.val]? = some b →
      (hexFull order id)[2 * k.val]? = some (hexDigit (id[b].extractLsb' 4 4)) ∧
      (hexFull order id)[2 * k.val + 1]? = some (hexDigit (id[b].extractLsb' 0 4))) ∧
    (∀ j, j < min 10 (if counts then maxLen - 1 else maxLen) →
      (identifierHex order counts id maxLen)[j]? = (hexFull order id)[j]?) ∧
    (identifierHex order counts id maxLen).length = min 10 (if counts then maxLen - 1 else maxLen) + 1 ∧
    (identifierHex order counts id maxLen).getLast? = some hexTerminator
end

