-- ==== Sys2Proof/Laws/Memory.lean ====
section
/-! SUPPORT. The laws of the sample buffer: read after write, what a write leaves alone, and that every operation
keeps the canonical form. -/

namespace Sys2Proof.Machine

/-- The canonical form, as a proposition. -/
theorem Memory.wf_iff (m : Memory) :
    m.wf = true ↔ m.Pairwise (fun a b => a.1 < b.1) ∧ ∀ c ∈ m, c.1 < Config.C ∧ c.2 = true := by
  simp [Memory.wf, Memory.unlisted]

theorem Memory.wf_nil : Memory.wf [] = true := by simp [Memory.wf_iff]

theorem Memory.get_nil (i : Nat) : Memory.get [] i = false := rfl

theorem Memory.get_cons (j i : Nat) (b : Sample) (m : Memory) :
    Memory.get ((j, b) :: m) i = if i = j then b else m.get i := rfl

/-- An index that no cell lists reads as clear. -/
theorem Memory.get_of_unlisted (m : Memory) (i : Nat) (h : ∀ c ∈ m, c.1 ≠ i) : m.get i = false := by
  induction m with
  | nil => rfl
  | cons c m ih =>
    obtain ⟨j, b⟩ := c
    have hj : j ≠ i := h (j, b) (by simp)
    rw [Memory.get_cons, if_neg (Ne.symm hj)]
    exact ih fun c hc => h c (by simp [hc])

theorem Memory.get_cell_append (i k : Nat) (b : Sample) (m : Memory) (h : m.get i = false) :
    (Memory.cell i b ++ m).get k = if k = i then b else m.get k := by
  cases b
  · by_cases hk : k = i <;> simp [Memory.cell, Memory.unlisted, hk, h]
  · simp [Memory.cell, Memory.unlisted, Memory.get_cons]

/-- Read after write, and every other index as before: the one law of a write. -/
theorem Memory.get_put (m : Memory) (hm : m.wf = true) (i k : Nat) (b : Sample) :
    (m.put i b).get k = if k = i then b else m.get k := by
  induction m with
  | nil =>
    have := Memory.get_cell_append i k b [] rfl
    simpa [Memory.put] using this
  | cons c m ih =>
    obtain ⟨j, v⟩ := c
    rw [Memory.wf_iff, List.pairwise_cons] at hm
    obtain ⟨⟨hlt, hp⟩, hall⟩ := hm
    have hm' : Memory.wf m = true := (Memory.wf_iff m).2 ⟨hp, fun c hc => hall c (by simp [hc])⟩
    have above : ∀ n, n ≤ j → Memory.get m n = false := fun n hn =>
      Memory.get_of_unlisted m n fun c hc => by have := hlt c hc; simp only at this; omega
    unfold Memory.put
    split
    · refine Memory.get_cell_append i k b _ ?_
      rw [Memory.get_cons, if_neg (by omega)]
      exact above i (by omega)
    · split
      · rename_i hij
        subst hij
        rw [Memory.get_cell_append i k b m (above i (Nat.le_refl i)), Memory.get_cons]
        by_cases hk : k = i <;> simp [hk]
      · rename_i h1 h2
        rw [Memory.get_cons, ih hm', Memory.get_cons]
        by_cases hk : k = j
        · subst hk; simp [Ne.symm h2]
        · simp [hk]

/-- The cells of a written buffer: the new one, or old ones. -/
theorem Memory.mem_put (m : Memory) (i : Nat) (b : Sample) (c : Nat × Sample) (h : c ∈ m.put i b) :
    (c = (i, b) ∧ b = true) ∨ c ∈ m := by
  have hcell : ∀ c, c ∈ Memory.cell i b → c = (i, b) ∧ b = true := by
    intro c hc; cases b <;> simp_all [Memory.cell, Memory.unlisted]
  induction m with
  | nil => exact .inl (hcell c h)
  | cons d m ih =>
    obtain ⟨j, v⟩ := d
    unfold Memory.put at h
    split at h
    · rcases List.mem_append.1 h with h | h
      · exact .inl (hcell c h)
      · exact .inr h
    · split at h
      · rcases List.mem_append.1 h with h | h
        · exact .inl (hcell c h)
        · exact .inr (by simp [h])
      · rcases List.mem_cons.1 h with h | h
        · exact .inr (by simp [h])
        · rcases ih h with h | h
          · exact .inl h
          · exact .inr (by simp [h])

/-- A write keeps the canonical form. -/
theorem Memory.wf_put (m : Memory) (hm : m.wf = true) (i : Nat) (hi : i < Config.C) (b : Sample) :
    (m.put i b).wf = true := by
  rw [Memory.wf_iff] at hm ⊢
  refine ⟨?_, fun c hc => ?_⟩
  · obtain ⟨hp, -⟩ := hm
    induction m with
    | nil => cases b <;> simp [Memory.put, Memory.cell, Memory.unlisted]
    | cons d m ih =>
      obtain ⟨j, v⟩ := d
      rw [List.pairwise_cons] at hp
      obtain ⟨hlt, hp⟩ := hp
      unfold Memory.put
      split
      · rename_i h
        cases b
        · simpa [Memory.cell, Memory.unlisted, List.pairwise_cons] using ⟨fun a => ⟨fun hc => hlt (a, false) hc, fun hc => hlt (a, true) hc⟩, hp⟩
        · simp only [Memory.cell, Memory.unlisted, Bool.true_eq_false, if_false, List.singleton_append,
            List.pairwise_cons]
          refine ⟨fun c hc => ?_, hlt, hp⟩
          rcases List.mem_cons.1 hc with hc | hc
          · subst hc; exact h
          · exact Nat.lt_trans h (hlt c hc)
      · split
        · rename_i h
          subst h
          cases b
          · simpa [Memory.cell, Memory.unlisted] using hp
          · simpa [Memory.cell, Memory.unlisted, List.pairwise_cons] using ⟨fun a => ⟨fun hc => hlt (a, false) hc, fun hc => hlt (a, true) hc⟩, hp⟩
        · rename_i h1 h2
          rw [List.pairwise_cons]
          refine ⟨fun c hc => ?_, ih hp⟩
          rcases Memory.mem_put m i b c hc with ⟨hc, -⟩ | hc
          · subst hc; show j < i; omega
          · exact hlt c hc
  · rcases Memory.mem_put m i b c hc with ⟨hc, hb⟩ | hc
    · subst hc; exact ⟨hi, hb⟩
    · exact hm.2 c hc

/-- A read gives a sample exactly at an index that exists. -/
theorem Memory.bufRead_of_lt (m : Memory) {i : Nat} (h : i < Config.C) : m.bufRead i = some (m.get i) := if_pos h

theorem Memory.bufRead_of_ge (m : Memory) {i : Nat} (h : Config.C ≤ i) : m.bufRead i = none :=
  if_neg (Nat.not_lt.2 h)

theorem Memory.bufWrite_of_lt (m : Memory) {i : Nat} (h : i < Config.C) (b : Sample) :
    m.bufWrite i b = some (m.put i b) := if_pos h

theorem Memory.bufWrite_of_ge (m : Memory) {i : Nat} (h : Config.C ≤ i) (b : Sample) : m.bufWrite i b = none :=
  if_neg (Nat.not_lt.2 h)

/-- The one write operation keeps the canonical form. -/
theorem Memory.bufWrite_wf (m m' : Memory) (i : Nat) (b : Sample) (hm : m.wf = true)
    (h : m.bufWrite i b = some m') : m'.wf = true := by
  unfold Memory.bufWrite at h
  split at h
  · rename_i hi
    cases h
    exact Memory.wf_put m hm i hi b
  · cases h

/-- A row is read whole when its last sample exists. -/
theorem readRow_of_lt (m : Memory) {i : Nat} (h : i + 4 < Config.C) :
    readRow m i = some ⟨m.get i, m.get (i + 1), m.get (i + 2), m.get (i + 3), m.get (i + 4)⟩ := by
  simp only [readRow, Memory.bufRead_of_lt m (show i < Config.C by omega),
    Memory.bufRead_of_lt m (show i + 1 < Config.C by omega), Memory.bufRead_of_lt m (show i + 2 < Config.C by omega),
    Memory.bufRead_of_lt m (show i + 3 < Config.C by omega), Memory.bufRead_of_lt m h]

theorem readRow_of_ge (m : Memory) {i : Nat} (h : Config.C ≤ i + 4) : readRow m i = none := by
  unfold readRow
  rw [Memory.bufRead_of_ge m h]
  split <;> simp_all

/-- A buffer loaded with a list holds it, and is canonical. -/
theorem Memory.get_ofSamplesFrom (l : List Sample) (i k : Nat) :
    (Memory.ofSamplesFrom i l).get k = if i ≤ k then l.getD (k - i) false else false := by
  induction l generalizing i k with
  | nil => simp [Memory.ofSamplesFrom, Memory.get_nil]
  | cons b l ih =>
    have hz : (Memory.ofSamplesFrom (i + 1) l).get i = false := by
      rw [ih, if_neg (by omega)]
    rw [Memory.ofSamplesFrom, Memory.get_cell_append i k b _ hz, ih]
    by_cases hk : k = i
    · subst hk; simp
    · by_cases hik : i ≤ k
      · rw [if_neg hk, if_pos (by omega), if_pos hik, show k - i = (k - (i + 1)) + 1 by omega]
        simp
      · rw [if_neg hk, if_neg (by omega), if_neg hik]

theorem Memory.mem_ofSamplesFrom (l : List Sample) (i : Nat) (c : Nat × Sample)
    (h : c ∈ Memory.ofSamplesFrom i l) : i ≤ c.1 ∧ c.1 < i + l.length ∧ c.2 = true := by
  induction l generalizing i with
  | nil => simp [Memory.ofSamplesFrom] at h
  | cons b l ih =>
    rcases List.mem_append.1 h with h | h
    · cases b
      · simp [Memory.cell, Memory.unlisted] at h
      · simp [Memory.cell, Memory.unlisted] at h
        subst h
        simp
    · have := ih (i + 1) h
      simp only [List.length_cons]
      exact ⟨by omega, by omega, this.2.2⟩

theorem Memory.wf_ofSamples (l : List Sample) (hl : l.length ≤ Config.C) : (Memory.ofSamples l).wf = true := by
  rw [Memory.wf_iff]
  refine ⟨?_, fun c hc => ?_⟩
  · suffices h : ∀ (l : List Sample) i, (Memory.ofSamplesFrom i l).Pairwise (fun a b => a.1 < b.1) from h l 0
    intro l
    induction l with
    | nil => intro i; simp [Memory.ofSamplesFrom]
    | cons b l ih =>
      intro i
      rw [Memory.ofSamplesFrom, List.pairwise_append]
      refine ⟨by cases b <;> simp [Memory.cell, Memory.unlisted], ih _, fun a ha c hc => ?_⟩
      have h1 := Memory.mem_ofSamplesFrom l (i + 1) c hc
      cases b
      · simp [Memory.cell, Memory.unlisted] at ha
      · simp [Memory.cell, Memory.unlisted] at ha
        subst ha
        exact h1.1
  · have := Memory.mem_ofSamplesFrom l 0 c hc
    exact ⟨by omega, this.2.2⟩

/-- The buffer at reset is canonical. -/
theorem reset_buf_wf : State.reset.buf.wf = true := Memory.wf_nil

end Sys2Proof.Machine
end

