-- ==== Sys2Proof/Laws/State.lean ====
section
/-! SUPPORT. What each named update of the state leaves in each field, one lemma per field, so that no later proof
unfolds a record update. -/

namespace Sys2Proof.Machine


/-! ### captureEdge -/

@[simp] theorem captureEdge_state (s : State) : (captureEdge s).state = s.state := rfl
@[simp] theorem captureEdge_c1 (s : State) : (captureEdge s).c1 = s.ports.rfidClk.capture (Config.freeClkCapture s.draw) := rfl
@[simp] theorem captureEdge_c2 (s : State) : (captureEdge s).c2 = s.c1 := rfl
@[simp] theorem captureEdge_d1 (s : State) : (captureEdge s).d1 = s.dataCapture := rfl
@[simp] theorem captureEdge_d2 (s : State) : (captureEdge s).d2 = s.d1 := rfl
@[simp] theorem captureEdge_cnt (s : State) : (captureEdge s).cnt = s.cnt := rfl
@[simp] theorem captureEdge_buf (s : State) : (captureEdge s).buf = s.buf := rfl
@[simp] theorem captureEdge_edgeMs (s : State) : (captureEdge s).edgeMs = s.edgeMs := rfl
@[simp] theorem captureEdge_winMs (s : State) : (captureEdge s).winMs = s.winMs := rfl
@[simp] theorem captureEdge_ptr (s : State) : (captureEdge s).ptr = s.ptr := rfl
@[simp] theorem captureEdge_hdr (s : State) : (captureEdge s).hdr = s.hdr := rfl
@[simp] theorem captureEdge_row (s : State) : (captureEdge s).row = s.row := rfl
@[simp] theorem captureEdge_colx (s : State) : (captureEdge s).colx = s.colx := rfl
@[simp] theorem captureEdge_nib (s : State) : (captureEdge s).nib = s.nib := rfl
@[simp] theorem captureEdge_id (s : State) : (captureEdge s).id = s.id := rfl
@[simp] theorem captureEdge_outcome (s : State) : (captureEdge s).outcome = s.outcome := rfl
@[simp] theorem captureEdge_doneR (s : State) : (captureEdge s).doneR = false := rfl
@[simp] theorem captureEdge_tagR (s : State) : (captureEdge s).tagR = false := rfl
@[simp] theorem captureEdge_ports (s : State) : (captureEdge s).ports = s.ports := rfl
@[simp] theorem captureEdge_lines (s : State) : (captureEdge s).lines = s.lines.push s.ports := rfl
@[simp] theorem captureEdge_script (s : State) : (captureEdge s).script = s.script := rfl
@[simp] theorem captureEdge_observed (s : State) : (captureEdge s).observed = s.observed := rfl
@[simp] theorem captureEdge_draw (s : State) : (captureEdge s).draw = s.draw + 1 := rfl
@[simp] theorem captureEdge_windowMs (s : State) : (captureEdge s).windowMs = s.windowMs := rfl

/-! ### resetEdge -/

@[simp] theorem resetEdge_state (s : State) : (resetEdge s).state = .idle := rfl
@[simp] theorem resetEdge_c1 (s : State) : (resetEdge s).c1 = true := rfl
@[simp] theorem resetEdge_c2 (s : State) : (resetEdge s).c2 = true := rfl
@[simp] theorem resetEdge_d1 (s : State) : (resetEdge s).d1 = true := rfl
@[simp] theorem resetEdge_d2 (s : State) : (resetEdge s).d2 = true := rfl
@[simp] theorem resetEdge_cnt (s : State) : (resetEdge s).cnt = 0#9 := rfl
@[simp] theorem resetEdge_buf (s : State) : (resetEdge s).buf = s.buf := rfl
@[simp] theorem resetEdge_edgeMs (s : State) : (resetEdge s).edgeMs = 0#8 := rfl
@[simp] theorem resetEdge_winMs (s : State) : (resetEdge s).winMs = 0#8 := rfl
@[simp] theorem resetEdge_ptr (s : State) : (resetEdge s).ptr = 0#9 := rfl
@[simp] theorem resetEdge_hdr (s : State) : (resetEdge s).hdr = 9#4 := rfl
@[simp] theorem resetEdge_row (s : State) : (resetEdge s).row = 0#4 := rfl
@[simp] theorem resetEdge_colx (s : State) : (resetEdge s).colx = 0#4 := rfl
@[simp] theorem resetEdge_nib (s : State) : (resetEdge s).nib = State.reset.nib := rfl
@[simp] theorem resetEdge_id (s : State) : (resetEdge s).id = State.reset.id := rfl
@[simp] theorem resetEdge_outcome (s : State) : (resetEdge s).outcome = OutcomeCode.noFrame := rfl
@[simp] theorem resetEdge_doneR (s : State) : (resetEdge s).doneR = false := rfl
@[simp] theorem resetEdge_tagR (s : State) : (resetEdge s).tagR = false := rfl
@[simp] theorem resetEdge_ports (s : State) : (resetEdge s).ports = s.ports := rfl
@[simp] theorem resetEdge_lines (s : State) : 
    (resetEdge s).lines = { s.lines.push s.ports with captured := false } := rfl
@[simp] theorem resetEdge_script (s : State) : (resetEdge s).script = s.script := rfl
@[simp] theorem resetEdge_observed (s : State) : (resetEdge s).observed = s.observed := rfl
@[simp] theorem resetEdge_draw (s : State) : (resetEdge s).draw = s.draw + 1 := rfl
@[simp] theorem resetEdge_windowMs (s : State) : (resetEdge s).windowMs = s.windowMs := rfl

/-! ### commit -/

@[simp] theorem commit_state (o : OutcomeCode) (s : State) : (commit o s).state = .idle := rfl
@[simp] theorem commit_c1 (o : OutcomeCode) (s : State) : (commit o s).c1 = s.c1 := rfl
@[simp] theorem commit_c2 (o : OutcomeCode) (s : State) : (commit o s).c2 = s.c2 := rfl
@[simp] theorem commit_d1 (o : OutcomeCode) (s : State) : (commit o s).d1 = s.d1 := rfl
@[simp] theorem commit_d2 (o : OutcomeCode) (s : State) : (commit o s).d2 = s.d2 := rfl
@[simp] theorem commit_cnt (o : OutcomeCode) (s : State) : (commit o s).cnt = s.cnt := rfl
@[simp] theorem commit_buf (o : OutcomeCode) (s : State) : (commit o s).buf = s.buf := rfl
@[simp] theorem commit_edgeMs (o : OutcomeCode) (s : State) : (commit o s).edgeMs = s.edgeMs := rfl
@[simp] theorem commit_winMs (o : OutcomeCode) (s : State) : (commit o s).winMs = s.winMs := rfl
@[simp] theorem commit_ptr (o : OutcomeCode) (s : State) : (commit o s).ptr = s.ptr := rfl
@[simp] theorem commit_hdr (o : OutcomeCode) (s : State) : (commit o s).hdr = s.hdr := rfl
@[simp] theorem commit_row (o : OutcomeCode) (s : State) : (commit o s).row = s.row := rfl
@[simp] theorem commit_colx (o : OutcomeCode) (s : State) : (commit o s).colx = s.colx := rfl
@[simp] theorem commit_nib (o : OutcomeCode) (s : State) : (commit o s).nib = s.nib := rfl
@[simp] theorem commit_id (o : OutcomeCode) (s : State) : (commit o s).id = s.id := rfl
@[simp] theorem commit_outcome (o : OutcomeCode) (s : State) : (commit o s).outcome = o := rfl
@[simp] theorem commit_doneR (o : OutcomeCode) (s : State) : (commit o s).doneR = true := rfl
@[simp] theorem commit_tagR (o : OutcomeCode) (s : State) : (commit o s).tagR = decide (o = OutcomeCode.success) := rfl
@[simp] theorem commit_ports (o : OutcomeCode) (s : State) : (commit o s).ports = s.ports := rfl
@[simp] theorem commit_lines (o : OutcomeCode) (s : State) : (commit o s).lines = s.lines := rfl
@[simp] theorem commit_script (o : OutcomeCode) (s : State) : (commit o s).script = s.script := rfl
@[simp] theorem commit_observed (o : OutcomeCode) (s : State) : (commit o s).observed = s.observed := rfl
@[simp] theorem commit_draw (o : OutcomeCode) (s : State) : (commit o s).draw = s.draw := rfl
@[simp] theorem commit_windowMs (o : OutcomeCode) (s : State) : (commit o s).windowMs = s.windowMs := rfl

/-! ### drive -/

@[simp] theorem drive_state (rst start : Bool) (idx : Nat) (s : State) : (s.drive rst start idx).state = s.state := rfl
@[simp] theorem drive_c1 (rst start : Bool) (idx : Nat) (s : State) : (s.drive rst start idx).c1 = s.c1 := rfl
@[simp] theorem drive_c2 (rst start : Bool) (idx : Nat) (s : State) : (s.drive rst start idx).c2 = s.c2 := rfl
@[simp] theorem drive_d1 (rst start : Bool) (idx : Nat) (s : State) : (s.drive rst start idx).d1 = s.d1 := rfl
@[simp] theorem drive_d2 (rst start : Bool) (idx : Nat) (s : State) : (s.drive rst start idx).d2 = s.d2 := rfl
@[simp] theorem drive_cnt (rst start : Bool) (idx : Nat) (s : State) : (s.drive rst start idx).cnt = s.cnt := rfl
@[simp] theorem drive_buf (rst start : Bool) (idx : Nat) (s : State) : (s.drive rst start idx).buf = s.buf := rfl
@[simp] theorem drive_edgeMs (rst start : Bool) (idx : Nat) (s : State) : (s.drive rst start idx).edgeMs = s.edgeMs := rfl
@[simp] theorem drive_winMs (rst start : Bool) (idx : Nat) (s : State) : (s.drive rst start idx).winMs = s.winMs := rfl
@[simp] theorem drive_ptr (rst start : Bool) (idx : Nat) (s : State) : (s.drive rst start idx).ptr = s.ptr := rfl
@[simp] theorem drive_hdr (rst start : Bool) (idx : Nat) (s : State) : (s.drive rst start idx).hdr = s.hdr := rfl
@[simp] theorem drive_row (rst start : Bool) (idx : Nat) (s : State) : (s.drive rst start idx).row = s.row := rfl
@[simp] theorem drive_colx (rst start : Bool) (idx : Nat) (s : State) : (s.drive rst start idx).colx = s.colx := rfl
@[simp] theorem drive_nib (rst start : Bool) (idx : Nat) (s : State) : (s.drive rst start idx).nib = s.nib := rfl
@[simp] theorem drive_id (rst start : Bool) (idx : Nat) (s : State) : (s.drive rst start idx).id = s.id := rfl
@[simp] theorem drive_outcome (rst start : Bool) (idx : Nat) (s : State) : (s.drive rst start idx).outcome = s.outcome := rfl
@[simp] theorem drive_doneR (rst start : Bool) (idx : Nat) (s : State) : (s.drive rst start idx).doneR = s.doneR := rfl
@[simp] theorem drive_tagR (rst start : Bool) (idx : Nat) (s : State) : (s.drive rst start idx).tagR = s.tagR := rfl
@[simp] theorem drive_ports (rst start : Bool) (idx : Nat) (s : State) : (s.drive rst start idx).ports = { s.ports with rst := rst, start := start, idIdx := BitVec.ofNat 8 idx } := rfl
@[simp] theorem drive_lines (rst start : Bool) (idx : Nat) (s : State) : (s.drive rst start idx).lines = s.lines := rfl
@[simp] theorem drive_script (rst start : Bool) (idx : Nat) (s : State) : (s.drive rst start idx).script = s.script := rfl
@[simp] theorem drive_observed (rst start : Bool) (idx : Nat) (s : State) : (s.drive rst start idx).observed = s.observed := rfl
@[simp] theorem drive_draw (rst start : Bool) (idx : Nat) (s : State) : (s.drive rst start idx).draw = s.draw := rfl
@[simp] theorem drive_windowMs (rst start : Bool) (idx : Nat) (s : State) : (s.drive rst start idx).windowMs = s.windowMs := rfl

/-! ### see -/

@[simp] theorem see_state (v : Seen) (s : State) : (s.see v).state = s.state := rfl
@[simp] theorem see_c1 (v : Seen) (s : State) : (s.see v).c1 = s.c1 := rfl
@[simp] theorem see_c2 (v : Seen) (s : State) : (s.see v).c2 = s.c2 := rfl
@[simp] theorem see_d1 (v : Seen) (s : State) : (s.see v).d1 = s.d1 := rfl
@[simp] theorem see_d2 (v : Seen) (s : State) : (s.see v).d2 = s.d2 := rfl
@[simp] theorem see_cnt (v : Seen) (s : State) : (s.see v).cnt = s.cnt := rfl
@[simp] theorem see_buf (v : Seen) (s : State) : (s.see v).buf = s.buf := rfl
@[simp] theorem see_edgeMs (v : Seen) (s : State) : (s.see v).edgeMs = s.edgeMs := rfl
@[simp] theorem see_winMs (v : Seen) (s : State) : (s.see v).winMs = s.winMs := rfl
@[simp] theorem see_ptr (v : Seen) (s : State) : (s.see v).ptr = s.ptr := rfl
@[simp] theorem see_hdr (v : Seen) (s : State) : (s.see v).hdr = s.hdr := rfl
@[simp] theorem see_row (v : Seen) (s : State) : (s.see v).row = s.row := rfl
@[simp] theorem see_colx (v : Seen) (s : State) : (s.see v).colx = s.colx := rfl
@[simp] theorem see_nib (v : Seen) (s : State) : (s.see v).nib = s.nib := rfl
@[simp] theorem see_id (v : Seen) (s : State) : (s.see v).id = s.id := rfl
@[simp] theorem see_outcome (v : Seen) (s : State) : (s.see v).outcome = s.outcome := rfl
@[simp] theorem see_doneR (v : Seen) (s : State) : (s.see v).doneR = s.doneR := rfl
@[simp] theorem see_tagR (v : Seen) (s : State) : (s.see v).tagR = s.tagR := rfl
@[simp] theorem see_ports (v : Seen) (s : State) : (s.see v).ports = s.ports := rfl
@[simp] theorem see_lines (v : Seen) (s : State) : (s.see v).lines = s.lines := rfl
@[simp] theorem see_script (v : Seen) (s : State) : (s.see v).script = s.script := rfl
@[simp] theorem see_observed (v : Seen) (s : State) : (s.see v).observed = v :: s.observed := rfl
@[simp] theorem see_draw (v : Seen) (s : State) : (s.see v).draw = s.draw := rfl
@[simp] theorem see_windowMs (v : Seen) (s : State) : (s.see v).windowMs = s.windowMs := rfl

/-! ### takeInputs -/

@[simp] theorem takeInputs_state (s : State) (p : Inputs) : (s.takeInputs p).state = s.state := rfl
@[simp] theorem takeInputs_c2 (s : State) (p : Inputs) : (s.takeInputs p).c2 = s.c2 := rfl
@[simp] theorem takeInputs_d2 (s : State) (p : Inputs) : (s.takeInputs p).d2 = s.d2 := rfl
@[simp] theorem takeInputs_cnt (s : State) (p : Inputs) : (s.takeInputs p).cnt = s.cnt := rfl
@[simp] theorem takeInputs_buf (s : State) (p : Inputs) : (s.takeInputs p).buf = s.buf := rfl
@[simp] theorem takeInputs_edgeMs (s : State) (p : Inputs) : (s.takeInputs p).edgeMs = s.edgeMs := rfl
@[simp] theorem takeInputs_winMs (s : State) (p : Inputs) : (s.takeInputs p).winMs = s.winMs := rfl
@[simp] theorem takeInputs_ptr (s : State) (p : Inputs) : (s.takeInputs p).ptr = s.ptr := rfl
@[simp] theorem takeInputs_hdr (s : State) (p : Inputs) : (s.takeInputs p).hdr = s.hdr := rfl
@[simp] theorem takeInputs_row (s : State) (p : Inputs) : (s.takeInputs p).row = s.row := rfl
@[simp] theorem takeInputs_colx (s : State) (p : Inputs) : (s.takeInputs p).colx = s.colx := rfl
@[simp] theorem takeInputs_nib (s : State) (p : Inputs) : (s.takeInputs p).nib = s.nib := rfl
@[simp] theorem takeInputs_id (s : State) (p : Inputs) : (s.takeInputs p).id = s.id := rfl
@[simp] theorem takeInputs_outcome (s : State) (p : Inputs) : (s.takeInputs p).outcome = s.outcome := rfl
@[simp] theorem takeInputs_doneR (s : State) (p : Inputs) : (s.takeInputs p).doneR = s.doneR := rfl
@[simp] theorem takeInputs_tagR (s : State) (p : Inputs) : (s.takeInputs p).tagR = s.tagR := rfl
@[simp] theorem takeInputs_lines (s : State) (p : Inputs) : (s.takeInputs p).lines = s.lines := rfl
@[simp] theorem takeInputs_script (s : State) (p : Inputs) : (s.takeInputs p).script = s.script := rfl
@[simp] theorem takeInputs_observed (s : State) (p : Inputs) : (s.takeInputs p).observed = s.observed := rfl
@[simp] theorem takeInputs_draw (s : State) (p : Inputs) : (s.takeInputs p).draw = s.draw := rfl
@[simp] theorem takeInputs_windowMs (s : State) (p : Inputs) : (s.takeInputs p).windowMs = s.windowMs := rfl
@[simp] theorem takeInputs_ports (s : State) (p : Inputs) : (s.takeInputs p).ports = p := rfl
@[simp] theorem takeInputs_c1 (s : State) (p : Inputs) :
    (s.takeInputs p).c1 =
      if s.lines.captured && s.lines.shortPhase p then Config.freeClkCapture (s.draw - 1) else s.c1 := rfl
@[simp] theorem takeInputs_d1 (s : State) (p : Inputs) :
    (s.takeInputs p).d1 =
      if s.lines.captured && s.lines.dataHold p then Config.freeDataCapture (s.draw - 1) else s.d1 := rfl

/-! ### the line history -/

@[simp] theorem push_clk (h : LineHistory) (p : Inputs) : (h.push p).clk = p.rfidClk := rfl
@[simp] theorem push_clkBefore (h : LineHistory) (p : Inputs) : (h.push p).clkBefore = h.clk := rfl
@[simp] theorem push_data (h : LineHistory) (p : Inputs) : (h.push p).data = p.rfidData := rfl
@[simp] theorem push_captured (h : LineHistory) (p : Inputs) : (h.push p).captured = true := rfl

/-- Where the reader keeps R241, taking the inputs changes the ports only. -/
theorem takeInputs_of_kept (s : State) (p : Inputs) (hs : s.lines.shortPhase p = false)
    (hd : s.lines.dataHold p = false) : s.takeInputs p = { s with ports := p } := by
  simp [State.takeInputs, hs, hd]

/-- After a reset edge there is no capture to draw again. -/
theorem takeInputs_of_reset (s : State) (p : Inputs) (h : s.lines.captured = false) :
    s.takeInputs p = { s with ports := p } := by
  simp [State.takeInputs, h]

/-- Where the reader keeps R241, `d1` captures the line's level. -/
theorem dataCapture_of_kept (s : State) (hs : s.lines.dataSetup s.ports = false)
    (hd : s.lines.dataHold s.ports = false) :
    s.dataCapture = s.ports.rfidData.capture (Config.freeDataCapture s.draw) := by
  simp [State.dataCapture, hs, hd]

/-- A clock line that stays as it was shows no short phase. -/
theorem shortPhase_same (h : LineHistory) (p : Inputs) (e : p.rfidClk = h.clk) : h.shortPhase p = false := by
  simp [LineHistory.shortPhase, e]

/-! ### the lines -/

@[simp] theorem capture_low (b : Bool) : LineLevel.low.capture b = false := rfl
@[simp] theorem capture_high (b : Bool) : LineLevel.high.capture b = true := rfl
@[simp] theorem capture_unsettled (b : Bool) : LineLevel.unsettled.capture b = b := rfl

/-- A drive with the values already at the ports changes nothing. -/
theorem drive_self (s : State) {rst start : Bool} (hr : s.ports.rst = rst) (hs : s.ports.start = start) :
    s.drive rst start s.ports.idIdx.toNat = s := by
  subst hr hs
  simp [State.drive]

end Sys2Proof.Machine
end

