-- ==== Sys2Proof/Laws/Ops.lean ====
section
/-! SUPPORT. One lemma for each shared operation that says what it can do: the clock edge, the timers, the counts and
the nibble accumulator. -/

namespace Sys2Proof.Machine

/-! ### the clock edge -/

/-- A clock edge is a reset edge, or the action on the captured state. -/
theorem clockEdge_rst (act : Action) (s : State) (h : s.ports.rst = true) : clockEdge act s = .next (resetEdge s) :=
  if_pos h

theorem clockEdge_run (act : Action) (s : State) (h : s.ports.rst = false) :
    clockEdge act s = act s (captureEdge s) := by simp [clockEdge, h]

theorem clockEdge_cases {act : Action} {s t : State} (h : clockEdge act s = .next t) :
    (s.ports.rst = true ∧ t = resetEdge s) ∨ (s.ports.rst = false ∧ act s (captureEdge s) = .next t) := by
  unfold clockEdge at h
  split at h
  · cases h; exact .inl ⟨‹_›, rfl⟩
  · exact .inr ⟨Bool.eq_false_iff.2 ‹_›, h⟩

/-- A cycle with given inputs is a reset edge, or the selected action on the captured state. -/
theorem cycleWith_cases {p : Inputs} {s t : State} (h : cycleWith p s = .next t) :
    (p.rst = true ∧ t = resetEdge (s.takeInputs p)) ∨
    (p.rst = false ∧ stateAction s.state (s.takeInputs p) (captureEdge (s.takeInputs p)) = .next t) :=
  clockEdge_cases (s := s.takeInputs p) h

/-- A state action row of the table is a clock edge with its action (R81). -/
theorem exec_stateRow (n : StateName) (s : State) : exec n.instr s = clockEdge (stateAction n) s := by
  cases n <;> rfl

/-- Putting on the ports what is already there changes nothing. -/
theorem drive_atPorts (s : State) (p : Inputs) :
    (s.takeInputs p).drive p.rst p.start p.idIdx.toNat = s.takeInputs p :=
  drive_self _ rfl rfl

/-- No action but IDLE's reads `start_i` (R101). -/
theorem stateAction_ignores_start (n : StateName) (hn : n ≠ .idle) (old new : State) (b : Bool) :
    stateAction n { old with ports := { old.ports with start := b } } new = stateAction n old new := by
  cases n <;> first | contradiction | rfl

/-! ### timers and counts -/

theorem tickInc_toNat (tick : Bool) (x : Timer) : (tickInc tick x).toNat = min (x.toNat + tick.toNat) 255 := by
  have : min (x.toNat + tick.toNat) 255 < 2 ^ 8 := by omega
  simp only [tickInc, BitVec.toNat_ofNat, Nat.mod_eq_of_lt this]

theorem timedOut_iff (s : State) : timedOut s = true ↔ s.windowMs < s.winMs.toNat ∨ 2 < s.edgeMs.toNat := by
  simp [timedOut, timedOutAt]

theorem plus_toNat (x : Count) (k : Nat) (h : x.toNat + k < 512) : (Count.plus x k).toNat = x.toNat + k := by
  simp only [Count.plus, BitVec.toNat_ofNat]
  exact Nat.mod_eq_of_lt h

theorem rowNext_toNat (x : RowCount) (h : x.toNat < 15) : (rowNext x).toNat = x.toNat + 1 := by
  simp only [rowNext, BitVec.toNat_ofNat]
  exact Nat.mod_eq_of_lt (by omega)

/-- A countdown in its range goes down by one (R29, R150). -/
theorem hdrDown_toNat (s : State) (h : 1 ≤ s.hdr.toNat) : (hdrDown s).toNat = s.hdr.toNat - 1 := by
  have h0 : s.hdr ≠ 0#4 := by intro e; rw [e] at h; simp at h
  have := s.hdr.isLt
  simp only [hdrDown, if_neg h0, BitVec.toNat_ofNat]
  exact Nat.mod_eq_of_lt (by omega)

/-! ### the accumulator -/

theorem nibIndex_of_le (row : RowCount) (h : row.toNat ≤ 9) :
    nibIndex row = some (Fin.ofNat 10 (9 - row.toNat)) := if_pos h

theorem nibIndex_of_gt (row : RowCount) (h : 9 < row.toNat) : nibIndex row = none := if_neg (by omega)

theorem nibWrite_get (nib : Accumulator) (i j : Fin 10) (v : Nibble) :
    (nibWrite nib i v)[j] = if i = j then v else nib[j] := by
  simp [nibWrite, Vector.getElem_set, Fin.ext_iff]

/-- A write at or below the next entry leaves the XOR of the entries already written (R166). -/
theorem nibXor_congr (a b : Accumulator) (n : Nat) (h : ∀ j : Fin 10, 10 ≤ j.val + n → a[j] = b[j]) (hn : n ≤ 10) :
    nibXor a n = nibXor b n := by
  induction n with
  | zero => rfl
  | succ n ih =>
    rw [nibXor, nibXor, ih (fun j hj => h j (by omega)) (by omega), h _ (by simp [Fin.ofNat]; omega)]

/-- The running XOR after one more row (R160, R166). -/
theorem nibXor_nibWrite (nib : Accumulator) (n : Nat) (hn : n ≤ 9) (v : Nibble) :
    nibXor (nibWrite nib (Fin.ofNat 10 (9 - n)) v) (n + 1) = nibXor nib n ^^^ v := by
  rw [nibXor, nibWrite_get, if_pos rfl]
  congr 1
  refine nibXor_congr _ _ n (fun j hj => ?_) (by omega)
  rw [nibWrite_get, if_neg]
  intro e
  rw [← e] at hj
  simp [Fin.ofNat] at hj
  omega

end Sys2Proof.Machine
end

