-- ==== Sys2Proof/Laws/Actions.lean ====
section
/-! SUPPORT. One lemma for each state action that says everything it can answer as a next state, guards included, so
that an invariant is a short case analysis over these and not over the actions' text. -/

namespace Sys2Proof.Machine

theorem idleAction_cases {old new t : State} (h : idleAction old new = .next t) :
    (old.ports.start = true ∧ old.c2 = true ∧ t = commit OutcomeCode.noFrame new) ∨
    (old.ports.start = true ∧ old.c2 = false ∧
      t = { new with state := .waitHigh, cnt := 0#9, winMs := 0#8, edgeMs := 0#8 }) ∨
    (old.ports.start = false ∧ t = new) := by
  unfold idleAction at h
  split at h
  · split at h
    · cases h; exact .inl ⟨‹_›, ‹_›, rfl⟩
    · cases h; exact .inr (.inl ⟨‹_›, Bool.eq_false_iff.2 ‹_›, rfl⟩)
  · cases h; exact .inr (.inr ⟨Bool.eq_false_iff.2 ‹_›, rfl⟩)

theorem waitHighAction_cases {old new t : State} (h : waitHighAction old new = .next t) :
    (timedOut old = true ∧
      t = { new with
        winMs := tickInc old.ports.msTick old.winMs, edgeMs := tickInc old.ports.msTick old.edgeMs
        state := .checkCount }) ∨
    (timedOut old = false ∧ old.c2 = false ∧
      t = { new with
        winMs := tickInc old.ports.msTick old.winMs, edgeMs := tickInc old.ports.msTick old.edgeMs }) ∨
    (timedOut old = false ∧ old.c2 = true ∧ old.cnt.toNat = 255 ∧
      t = { new with
        winMs := tickInc old.ports.msTick old.winMs, edgeMs := tickInc old.ports.msTick old.edgeMs
        buf := old.buf.put old.cnt.toNat old.d2, cnt := Count.plus old.cnt 1, state := .checkCount }) ∨
    (timedOut old = false ∧ old.c2 = true ∧ old.cnt.toNat < 255 ∧
      t = { new with
        winMs := tickInc old.ports.msTick old.winMs, edgeMs := 0#8
        buf := old.buf.put old.cnt.toNat old.d2, cnt := Count.plus old.cnt 1, state := .waitLow }) := by
  unfold waitHighAction at h
  cases ht : timedOut old
  · cases hc : old.c2
    · simp only [ht, hc, Bool.false_eq_true, if_false] at h
      cases h; exact .inr (.inl ⟨rfl, rfl, rfl⟩)
    · by_cases hb : old.cnt.toNat < 256
      · simp only [ht, hc, Bool.false_eq_true, if_false, if_true, Memory.bufWrite_of_lt _ hb] at h
        split at h
        · cases h; exact .inr (.inr (.inl ⟨rfl, rfl, by simp at *; omega, rfl⟩))
        · cases h; exact .inr (.inr (.inr ⟨rfl, rfl, by simp at *; omega, rfl⟩))
      · simp only [ht, hc, Bool.false_eq_true, if_false, if_true,
          Memory.bufWrite_of_ge _ (Nat.not_lt.1 hb)] at h
        cases h
  · simp only [ht, if_true] at h
    cases h; exact .inl ⟨rfl, rfl⟩

theorem waitLowAction_cases {old new t : State} (h : waitLowAction old new = .next t) :
    (timedOut old = true ∧
      t = { new with
        winMs := tickInc old.ports.msTick old.winMs, edgeMs := tickInc old.ports.msTick old.edgeMs
        state := .checkCount }) ∨
    (timedOut old = false ∧ old.c2 = true ∧
      t = { new with
        winMs := tickInc old.ports.msTick old.winMs, edgeMs := tickInc old.ports.msTick old.edgeMs }) ∨
    (timedOut old = false ∧ old.c2 = false ∧
      t = { new with winMs := tickInc old.ports.msTick old.winMs, edgeMs := 0#8, state := .waitHigh }) := by
  unfold waitLowAction at h
  cases ht : timedOut old
  · cases hc : old.c2
    · simp only [ht, hc, Bool.false_eq_true, if_false] at h
      cases h; exact .inr (.inr ⟨rfl, rfl, rfl⟩)
    · simp only [ht, hc, Bool.false_eq_true, if_false, if_true] at h
      cases h; exact .inr (.inl ⟨rfl, rfl, rfl⟩)
  · simp only [ht, if_true] at h
    cases h; exact .inl ⟨rfl, rfl⟩

theorem checkCountAction_cases {old new t : State} (h : checkCountAction old new = .next t) :
    (old.cnt.toNat < 64 ∧ t = commit OutcomeCode.timeout new) ∨
    (64 ≤ old.cnt.toNat ∧ t = { new with ptr := 0#9, hdr := 9#4, state := .hdrScan }) := by
  unfold checkCountAction at h
  split at h
  · cases h; exact .inl ⟨‹_›, rfl⟩
  · cases h; exact .inr ⟨by simp at *; omega, rfl⟩

theorem hdrScanAction_cases {old new t : State} (h : hdrScanAction old new = .next t) :
    (old.cnt.toNat ≤ old.ptr.toNat ∧ t = commit OutcomeCode.noFrame new) ∨
    (old.ptr.toNat < old.cnt.toNat ∧ old.ptr.toNat < 256 ∧
      ((old.buf.get old.ptr.toNat = true ∧ old.hdr = 1#4 ∧
          t = { new with ptr := Count.plus old.ptr 1, hdr := 9#4, row := 0#4, colx := 0#4, state := .row }) ∨
        (old.buf.get old.ptr.toNat = true ∧ old.hdr ≠ 1#4 ∧
          t = { new with ptr := Count.plus old.ptr 1, hdr := hdrDown old }) ∨
        (old.buf.get old.ptr.toNat = false ∧ t = { new with ptr := Count.plus old.ptr 1, hdr := 9#4 }))) := by
  unfold hdrScanAction at h
  split at h
  · cases h; exact .inl ⟨‹_›, rfl⟩
  · have hlt : old.ptr.toNat < old.cnt.toNat := by simp at *; omega
    by_cases hb : old.ptr.toNat < 256
    · refine .inr ⟨hlt, hb, ?_⟩
      rw [Memory.bufRead_of_lt _ hb] at h
      cases hs : old.buf.get old.ptr.toNat
      · simp only [hs, Bool.false_eq_true, false_and, if_false] at h
        cases h; exact .inr (.inr ⟨rfl, rfl⟩)
      · by_cases hh : old.hdr = 1#4
        · simp only [hs, hh, and_self, if_true] at h
          cases h; exact .inl ⟨rfl, hh, rfl⟩
        · simp only [hs, hh, and_false, if_false, if_true] at h
          cases h; exact .inr (.inl ⟨rfl, hh, rfl⟩)
    · rw [Memory.bufRead_of_ge _ (Nat.not_lt.1 hb)] at h
      cases h

theorem rowAction_cases {old new t : State} (h : rowAction old new = .next t) :
    (old.cnt.toNat < old.ptr.toNat + 5 ∧ t = commit OutcomeCode.noFrame new) ∨
    (old.ptr.toNat + 5 ≤ old.cnt.toNat ∧ old.ptr.toNat + 4 < 256 ∧
      (((rowOf old).parity = true ∧ t = commit OutcomeCode.rowParity new) ∨
        ((rowOf old).parity = false ∧ old.row.toNat ≤ 9 ∧
          t = { new with
            nib := nibWrite old.nib (Fin.ofNat 10 (9 - old.row.toNat)) (rowOf old).value
            colx := old.colx ^^^ (rowOf old).value, ptr := Count.plus old.ptr 5, row := rowNext old.row
            state := if old.row = 9#4 then .final else old.state }))) := by
  unfold rowAction at h
  split at h
  · cases h; exact .inl ⟨‹_›, rfl⟩
  · have hlt : old.ptr.toNat + 5 ≤ old.cnt.toNat := by simp at *; omega
    by_cases hb : old.ptr.toNat + 4 < 256
    · refine .inr ⟨hlt, hb, ?_⟩
      rw [readRow_of_lt _ hb] at h
      change (if (rowOf old).parity = true then _ else _) = _ at h
      cases hp : (rowOf old).parity
      · simp only [hp, Bool.false_eq_true, if_false] at h
        by_cases hr : old.row.toNat ≤ 9
        · rw [nibIndex_of_le _ hr] at h
          cases h; exact .inr ⟨rfl, hr, rfl⟩
        · rw [nibIndex_of_gt _ (by simp at *; omega)] at h
          cases h
      · simp only [hp, if_true] at h
        cases h; exact .inl ⟨rfl, rfl⟩
    · rw [readRow_of_ge _ (by simp at *; omega)] at h
      cases h

theorem finalAction_cases {old new t : State} (h : finalAction old new = .next t) :
    (old.cnt.toNat < old.ptr.toNat + 5 ∧ t = commit OutcomeCode.noFrame new) ∨
    (old.ptr.toNat + 5 ≤ old.cnt.toNat ∧ old.ptr.toNat + 4 < 256 ∧
      (((rowOf old).s4 = true ∧ t = commit OutcomeCode.stopBit new) ∨
        ((rowOf old).s4 = false ∧ old.colx ^^^ (rowOf old).value ≠ 0#4 ∧ t = commit OutcomeCode.colParity new) ∨
        ((rowOf old).s4 = false ∧ old.colx ^^^ (rowOf old).value = 0#4 ∧
          t = commit OutcomeCode.success { new with id := assemble old.nib }))) := by
  unfold finalAction at h
  split at h
  · cases h; exact .inl ⟨‹_›, rfl⟩
  · have hlt : old.ptr.toNat + 5 ≤ old.cnt.toNat := by simp at *; omega
    by_cases hb : old.ptr.toNat + 4 < 256
    · refine .inr ⟨hlt, hb, ?_⟩
      rw [readRow_of_lt _ hb] at h
      change (if (rowOf old).s4 = true then _ else if old.colx ^^^ (rowOf old).value ≠ 0#4 then _ else _) = _ at h
      cases hp : (rowOf old).s4
      · by_cases hx : old.colx ^^^ (rowOf old).value = 0#4
        · simp only [hp, hx, Bool.false_eq_true, if_false, ne_eq, not_true_eq_false] at h
          cases h; exact .inr (.inr ⟨rfl, hx, rfl⟩)
        · simp only [hp, hx, Bool.false_eq_true, if_false, ne_eq, not_false_eq_true, if_true] at h
          cases h; exact .inr (.inl ⟨rfl, hx, rfl⟩)
      · simp only [hp, if_true] at h
        cases h; exact .inl ⟨rfl, rfl⟩
    · rw [readRow_of_ge _ (by simp at *; omega)] at h
      cases h

theorem unused7Action_cases {old new t : State} (h : unused7Action old new = .next t) :
    t = { new with state := .idle } := by
  cases h; rfl

end Sys2Proof.Machine
end

