-- ==== Sys2Proof/Laws/Encoding.lean ====
section
/-! SUPPORT. The two formats: what the fields of a host packet are, and what its two bytes decode to. -/

namespace Sys2Proof

/-- The two bytes of a packet, joined again. -/
theorem packetBytes_join (w : HostWord) :
    ((w.extractLsb' 8 8 : Byte) ++ (w.extractLsb' 0 8 : Byte) : HostWord) = w := by
  refine BitVec.eq_of_getLsbD_eq fun i hi => ?_
  rw [BitVec.getLsbD_append]
  by_cases h : i < 8
  · simp [h]
  · simp [h, show i - 8 < 8 by omega, show 8 + (i - 8) = i by omega]

theorem decode_packetBytes (w : HostWord) : decode (packetBytes w) = decodeHost w := by
  show decodeHost _ = _
  rw [packetBytes_join]

theorem hostPacket_high (sel : BitVec 3) (r s i : Bool) (k : Byte) :
    (hostPacket sel r s i k).extractLsb' 14 2 = 0#2 := by
  refine BitVec.eq_of_getLsbD_eq fun j hj => ?_
  simp only [hostPacket, BitVec.getLsbD_extractLsb', BitVec.getLsbD_append]
  interval_cases j <;> simp

theorem hostPacket_sel (sel : BitVec 3) (r s i : Bool) (k : Byte) :
    (hostPacket sel r s i k).extractLsb' 11 3 = sel := by
  refine BitVec.eq_of_getLsbD_eq fun j hj => ?_
  simp only [hostPacket, BitVec.getLsbD_extractLsb', BitVec.getLsbD_append]
  interval_cases j <;> simp

theorem hostPacket_idx (sel : BitVec 3) (r s i : Bool) (k : Byte) :
    (hostPacket sel r s i k).extractLsb' 0 8 = k := by
  refine BitVec.eq_of_getLsbD_eq fun j hj => ?_
  simp only [hostPacket, BitVec.getLsbD_extractLsb', BitVec.getLsbD_append]
  simp [hj, show j < 9 by omega, show j < 10 by omega, show j < 11 by omega, show j < 14 by omega]

theorem hostPacket_rst (sel : BitVec 3) (r s i : Bool) (k : Byte) :
    (hostPacket sel r s i k).getLsbD 10 = r := by
  simp only [hostPacket, BitVec.getLsbD_append]
  cases r <;> simp

theorem hostPacket_start (sel : BitVec 3) (r s i : Bool) (k : Byte) :
    (hostPacket sel r s i k).getLsbD 9 = s := by
  simp only [hostPacket, BitVec.getLsbD_append]
  cases s <;> simp

theorem hostPacket_idle (sel : BitVec 3) (r s i : Bool) (k : Byte) :
    (hostPacket sel r s i k).getLsbD 8 = i := by
  simp only [hostPacket, BitVec.getLsbD_append]
  cases i <;> simp

/-- A port pattern's packet decodes to its row of R83. -/
theorem decode_port (r s i : Bool) (k : Byte) :
    decode (packetBytes (hostPacket 0#3 r s i k)) = .ok (decodePort r s i k.toNat) := by
  rw [decode_packetBytes, decodeHost]
  simp only [hostPacket_high, hostPacket_sel, hostPacket_idx, hostPacket_rst, hostPacket_start, hostPacket_idle,
    ne_eq, not_true_eq_false, if_false]
  rfl

/-- An observation's packet decodes to its row. -/
theorem decode_observation (o : Machine.Observation) : decode (packetBytes o.packet) = .ok o.instr := by
  cases o <;> rw [decode_packetBytes, decodeHost] <;>
    simp only [Machine.Observation.packet, hostPacket_high, hostPacket_sel, hostPacket_idx, ne_eq,
      not_true_eq_false, if_false] <;> rfl

/-- A state code's byte decodes to its fsm-state row. -/
theorem decode_code (n : StateName) : decode (codeBytes n) = .ok n.instr := by
  cases n <;> decide

theorem ofCode_code (n : StateName) : StateName.ofCode n.code = n := by cases n <;> decide

theorem idx_toNat {k : Nat} (h : idxOk k = true) : (BitVec.ofNat 8 k).toNat = k := by
  have : k < 2 ^ 8 := of_decide_eq_true h
  rw [BitVec.toNat_ofNat, Nat.mod_eq_of_lt this]

end Sys2Proof
end

