-- ==== Sys2Proof/Laws/PerInstr.lean ====
section
/-! SUPPORT. The statements made for every instruction, one lemma per constructor of `Instr`. -/

namespace Sys2Proof.Laws

/-- Decoding an encoded well-formed instruction gives it back. -/
def RoundTrip.Statement (i : Instr) : Prop := i.wf = true → decode (encode i) = .ok i

theorem RoundTrip.idle : RoundTrip.Statement .idle := fun _ => decode_code .idle
theorem RoundTrip.waitHigh : RoundTrip.Statement .waitHigh := fun _ => decode_code .waitHigh
theorem RoundTrip.waitLow : RoundTrip.Statement .waitLow := fun _ => decode_code .waitLow
theorem RoundTrip.checkCount : RoundTrip.Statement .checkCount := fun _ => decode_code .checkCount
theorem RoundTrip.hdrScan : RoundTrip.Statement .hdrScan := fun _ => decode_code .hdrScan
theorem RoundTrip.row : RoundTrip.Statement .row := fun _ => decode_code .row
theorem RoundTrip.final : RoundTrip.Statement .final := fun _ => decode_code .final
theorem RoundTrip.unused7 : RoundTrip.Statement .unused7 := fun _ => decode_code .unused7

theorem RoundTrip.reset (start idle : Bool) (idx : Nat) : RoundTrip.Statement (.reset start idle idx) := fun h => by
  rw [encode, decode_port, idx_toNat h]
  rfl

theorem RoundTrip.cycle (idle : Bool) (idx : Nat) : RoundTrip.Statement (.cycle idle idx) := fun h => by
  rw [encode, decode_port, idx_toNat h]
  rfl

theorem RoundTrip.poll (idx : Nat) : RoundTrip.Statement (.poll idx) := fun h => by
  rw [encode, decode_port, idx_toNat h]
  rfl

theorem RoundTrip.pollIgnored (idx : Nat) : RoundTrip.Statement (.pollIgnored idx) := fun h => by
  rw [encode, decode_port, idx_toNat h]
  rfl

theorem RoundTrip.readOutcome : RoundTrip.Statement .readOutcome := fun _ => decode_observation .outcome
theorem RoundTrip.readId : RoundTrip.Statement .readId := fun _ => decode_observation .ident

theorem RoundTrip.readIdByte (k : Nat) : RoundTrip.Statement (.readIdByte k) := fun h => by
  have := decode_observation (.idByte (BitVec.ofNat 8 k))
  rwa [Machine.Observation.instr, idx_toNat h] at this

theorem RoundTrip.tagEvent : RoundTrip.Statement .tagEvent := fun _ => decode_observation .tag
theorem RoundTrip.waitDone : RoundTrip.Statement .waitDone := fun _ => decode_observation .done

end Sys2Proof.Laws
end

