-- ==== Sys2Proof/Tests/Slice0.lean ====
section
/-! SUPPORT. Small tests, each about one word or one step, with the expected values of spec/95_test_vectors.md (named
V-… or P…) or worked out by hand from the rule it names; and, for every statement with hypotheses, a witness that
meets them. -/

namespace Sys2Proof.Tests

open Sys2Proof.Machine

/-! ## Helpers -/

/-- The next state, if the machine answers one. -/
def next? (r : Result) : Option State :=
  match r with
  | .next t => some t
  | .fault _ => none
  | .refused _ => none

/-- The fault, if the machine answers one. -/
def fault? (r : Result) : Option Fault :=
  match r with
  | .next _ => none
  | .fault f => some f
  | .refused _ => none

/-- The refusal, if the machine answers one. -/
def refusal? (r : Result) : Option Refusal :=
  match r with
  | .next _ => none
  | .fault _ => none
  | .refused q => some q

/-- The instruction, if the decoder answers one. -/
def ok? (r : Except DecodeError Instr) : Option Instr :=
  match r with
  | .ok i => some i
  | .error _ => none

/-- Samples written as the spec writes them. -/
def samplesOf (l : List Nat) : List Sample := l.map fun n => decide (n = 1)

/-- Both lines low for some cycles. -/
def lowLines : LineHistory := { clk := .low, clkBefore := .low, data := .low, captured := true }

/-- Reset, then two quiet cycles: the synchronizers show the low lines. -/
def settled : State :=
  { State.reset with c1 := false, c2 := false, d1 := false, d2 := false, lines := lowLines }

/-- Control state `n` with a loaded buffer. -/
def loaded (n : StateName) (l : List Sample) : State :=
  { settled with state := n, buf := Memory.ofSamples l, cnt := BitVec.ofNat 9 l.length }

/-- The identifier 01 23 45 67 89. -/
def ident1 : Ident := #v[0x01#8, 0x23#8, 0x45#8, 0x67#8, 0x89#8]

/-- Its accumulator (V-A1). -/
def nib1 : Accumulator := #v[1#4, 0#4, 3#4, 2#4, 5#4, 4#4, 7#4, 6#4, 9#4, 8#4]

/-- Header and data rows of F1 (95_test_vectors.md 2.12), without the trailing row. -/
def f1Rows : List Sample :=
  samplesOf [1,1,1,1,1,1,1,1,1, 0,0,0,1,1, 1,0,0,1,0, 0,1,1,0,0, 1,1,1,0,1] ++
  samplesOf [0,0,1,0,1, 1,0,1,0,0, 0,1,0,0,1, 1,1,0,0,0, 0,0,0,0,0, 1,0,0,0,1]

/-- F1 (95_test_vectors.md 2.12). -/
def f1 : List Sample := f1Rows ++ samplesOf [1,0,0,0,0]

/-- FINAL on F1's header and data rows and the given trailing row (95_test_vectors.md 2.9). -/
def finalOn (colx : Nibble) (trailing : List Nat) : State :=
  { loaded .final (f1Rows ++ samplesOf trailing) with ptr := 59#9, row := 10#4, colx := colx, nib := nib1 }

/-- ROW with F1 loaded, at its last data row: nine rows accepted. -/
def lastRow : State :=
  { loaded .row f1 with
    ptr := 54#9, row := 9#4, colx := 0#4
    nib := #v[0#4, 0#4, 3#4, 2#4, 5#4, 4#4, 7#4, 6#4, 9#4, 8#4] }

/-- WAIT_HIGH with one place left in the buffer, the clock seen high and the data line set. -/
def lastSample : State :=
  { settled with state := .waitHigh, c2 := true, d2 := true, cnt := 255#9 }

/-- The inputs of one START cycle. -/
def startInputs : Inputs := { Inputs.quiet with start := true }

/-- The inputs of one cycle with the clock line high. -/
def clkHigh : Inputs := { Inputs.quiet with rfidClk := .high }

/-- The inputs of one RST cycle. -/
def rstInputs : Inputs := { Inputs.quiet with rst := true }

/-! ## WellFormed: each check refuses an ill-formed term -/

theorem test_wf_reset_index : (Instr.reset true false 256).wf = false := by decide
theorem test_wf_cycle_index : (Instr.cycle false 256).wf = false := by decide
theorem test_wf_poll_index : (Instr.poll 256).wf = false := by decide
theorem test_wf_pollIgnored_index : (Instr.pollIgnored 1000).wf = false := by decide
theorem test_wf_readIdByte_index : (Instr.readIdByte 256).wf = false := by decide
theorem test_wf_accepts_largest_index : (Instr.readIdByte 255).wf = true := by decide
theorem test_windowOk_refuses : Config.windowOk 255 = false ∧ Config.windowOk 254 = true := by decide

/-! ## Decoding: words written out from R80, R83 and the opcode table -/

theorem test_decode_idle : ok? (decode [0b00000000#8]) = some .idle := by decide
theorem test_decode_waitHigh : ok? (decode [0b00000001#8]) = some .waitHigh := by decide
theorem test_decode_waitLow : ok? (decode [0b00000010#8]) = some .waitLow := by decide
theorem test_decode_checkCount : ok? (decode [0b00000011#8]) = some .checkCount := by decide
theorem test_decode_hdrScan : ok? (decode [0b00000100#8]) = some .hdrScan := by decide
theorem test_decode_row : ok? (decode [0b00000101#8]) = some .row := by decide
theorem test_decode_final : ok? (decode [0b00000110#8]) = some .final := by decide
theorem test_decode_unused7 : ok? (decode [0b00000111#8]) = some .unused7 := by decide
theorem test_decode_reset : ok? (decode [0b00000101#8, 0b00000110#8]) = some (.reset true false 5) := by decide
theorem test_decode_cycle : ok? (decode [0b10000000#8, 0b00000001#8]) = some (.cycle true 128) := by decide
theorem test_decode_poll : ok? (decode [0b00000001#8, 0b00000011#8]) = some (.poll 1) := by decide
theorem test_decode_pollIgnored : ok? (decode [0b00000010#8, 0b00000010#8]) = some (.pollIgnored 2) := by decide
theorem test_decode_readOutcome : ok? (decode [0b00000000#8, 0b00001000#8]) = some .readOutcome := by decide
theorem test_decode_readId : ok? (decode [0b00000000#8, 0b00010000#8]) = some .readId := by decide
theorem test_decode_readIdByte : ok? (decode [0b00000100#8, 0b00011000#8]) = some (.readIdByte 4) := by decide
theorem test_decode_tagEvent : ok? (decode [0b00000000#8, 0b00100000#8]) = some .tagEvent := by decide
theorem test_decode_waitDone : ok? (decode [0b00000000#8, 0b00101000#8]) = some .waitDone := by decide
/-- The table's own numbering: bit 10 is `rst_i`, bit 9 `start_i`, bit 8 the IDLE test. -/
theorem test_decodeTableWord :
    decodeTableWord 8 6 = some .final ∧ decodeTableWord 16 0x400 = some (.reset false false 0) ∧
    decodeTableWord 16 0x300 = some (.poll 0) ∧ decodeTableWord 16 0x200 = some (.pollIgnored 0) ∧
    decodeTableWord 16 0x0FF = some (.cycle false 255) ∧ decodeTableWord 8 8 = none := by decide
/-- A placed word is what the next step runs: FINAL on the state after reset, where no row fits (R180), is not seen
otherwise. -/
theorem test_withFetchWord :
    (next? (step (State.reset.withFetchWord 8 6))).map (fun t => (t.outcome, t.doneR, t.script)) =
      some (0#3, true, []) := by decide

/-! ## One step of each instruction -/

/-- V-I1, IDLE row: `c2` is still the reset value. -/
theorem test_idle_rejects :
    (next? (exec .idle { State.reset with ports := startInputs })).map (fun t => (t.state, t.outcome, t.doneR)) =
      some (.idle, 0#3, true) := by decide
/-- V-I6: nothing but the synchronizer and the pulse clears. -/
theorem test_idle_waits :
    (next? (exec .idle { settled with doneR := true, tagR := true, outcome := 5#3, d1 := true })).map
      (fun t => (t.state, t.outcome, t.doneR, t.tagR, t.d1, t.d2)) =
      some (.idle, 5#3, false, false, false, true) := by decide
/-- V-W1. -/
theorem test_waitHigh_samples :
    (next? (exec .waitHigh { settled with state := .waitHigh, c2 := true, d2 := true, edgeMs := 2#8 })).map
      (fun t => (t.state, t.cnt, t.buf, t.edgeMs)) = some (.waitLow, 1#9, [(0, true)], 0#8) := by decide
/-- V-W4, D11: the sample that fills the buffer. -/
theorem test_waitHigh_fills :
    (next? (exec .waitHigh { lastSample with d2 := false, buf := [(255, true)] })).map
      (fun t => (t.state, t.cnt, t.buf)) = some (.checkCount, 256#9, []) := by decide
/-- V-W6. -/
theorem test_waitLow_goes_on :
    (next? (exec .waitLow { settled with
        state := .waitLow, winMs := 1#8, edgeMs := 1#8, ports := { Inputs.quiet with msTick := true } })).map
      (fun t => (t.state, t.winMs, t.edgeMs)) = some (.waitHigh, 2#8, 0#8) := by decide
/-- V-W7: a timeout does not restart the edge timer. -/
theorem test_waitLow_times_out :
    (next? (exec .waitLow { settled with state := .waitLow, edgeMs := 3#8 })).map
      (fun t => (t.state, t.winMs, t.edgeMs)) = some (.checkCount, 0#8, 3#8) := by decide
/-- V-CC2. -/
theorem test_checkCount_rejects_63 :
    (next? (exec .checkCount { settled with state := .checkCount, cnt := 63#9 })).map
      (fun t => (t.state, t.outcome, t.doneR, t.tagR)) = some (.idle, 1#3, true, false) := by decide
/-- V-CC3. -/
theorem test_checkCount_accepts_64 :
    (next? (exec .checkCount { settled with state := .checkCount, cnt := 64#9, ptr := 7#9, hdr := 2#4 })).map
      (fun t => (t.state, t.ptr, t.hdr, t.doneR)) = some (.hdrScan, 0#9, 9#4, false) := by decide
/-- V-H1, the last of its nine cycles. -/
theorem test_hdrScan_finds :
    (next? (exec .hdrScan { loaded .hdrScan (List.replicate 9 true) with ptr := 8#9, hdr := 1#4, row := 3#4 })).map
      (fun t => (t.state, t.ptr, t.hdr, t.row)) = some (.row, 9#9, 9#4, 0#4) := by decide
/-- V-H4, the clear sample at index 8 after eight set ones. -/
theorem test_hdrScan_starts_over :
    (next? (exec .hdrScan { loaded .hdrScan (List.replicate 8 true ++ [false]) with ptr := 8#9, hdr := 1#4 })).map
      (fun t => (t.state, t.ptr, t.hdr)) = some (.hdrScan, 9#9, 9#4) := by decide
/-- V-RW5, V-RW2: row `00011` is 0x8, goes to nib[9], and fits exactly. -/
theorem test_row_accepts :
    (next? (exec .row (loaded .row (samplesOf [0,0,0,1,1])))).map
      (fun t => (t.state, t.nib[9], t.nib[0], t.colx, t.row, t.ptr)) =
      some (.row, 8#4, 0#4, 8#4, 1#4, 5#9) := by decide
/-- V-RW6 with row `00010`: the commit leaves the row registers. -/
theorem test_row_rejects :
    (next? (exec .row (loaded .row (samplesOf [0,0,0,1,0])))).map
      (fun t => (t.state, t.outcome, t.nib[9], t.colx, t.row, t.ptr)) =
      some (.idle, 2#3, 0#4, 0#4, 0#4, 0#9) := by decide
/-- V-F9: column value 1 against `colx` 1. -/
theorem test_final_succeeds :
    (next? (exec .final (finalOn 1#4 [1,0,0,0,0]))).map (fun t => (t.state, t.outcome, t.tagR, t.id)) =
      some (.idle, 5#3, true, ident1) := by decide
/-- V-F4: the stop bit is looked at first, and the identifier stays. -/
theorem test_final_stop_bit_first :
    (next? (exec .final (finalOn 0#4 [1,0,0,0,1]))).map (fun t => (t.state, t.outcome, t.doneR, t.tagR, t.id)) =
      some (.idle, 4#3, true, false, #v[0#8, 0#8, 0#8, 0#8, 0#8]) := by decide
/-- R82. -/
theorem test_unused7 :
    (next? (exec .unused7 { settled with state := .unused7, outcome := 5#3 })).map
      (fun t => (t.state, t.outcome, t.doneR)) = some (.idle, 5#3, false) := by decide
/-- V-R2: a start in the reset cycle is ignored. -/
theorem test_reset :
    (next? (exec (.reset true false 0) { finalOn 1#4 [1,0,0,0,0] with id := ident1 })).map
      (fun t => (t.state, t.c2, t.hdr, t.nib[9], t.id[4], t.doneR)) =
      some (.idle, true, 9#4, 0#4, 0#8, false) := by decide
/-- CYCLE runs the action of the control state: V-W2 with a tick at the port. -/
theorem test_cycle :
    (next? (exec (.cycle false 3)
        { settled with state := .waitHigh, ports := { startInputs with msTick := true } })).map
      (fun t => (t.state, t.winMs, t.edgeMs, t.ports.start, t.ports.idIdx)) =
      some (.waitHigh, 1#8, 1#8, false, 3#8) := by decide
/-- V-I3: after two quiet cycles the poll starts. -/
theorem test_poll :
    (next? (exec (.poll 0) { settled with cnt := 7#9, winMs := 9#8, edgeMs := 9#8 })).map
      (fun t => (t.state, t.cnt, t.winMs, t.edgeMs, t.doneR)) = some (.waitHigh, 0#9, 0#8, 0#8, false) := by decide
/-- V-I5: a start while WAIT_HIGH is ignored. -/
theorem test_pollIgnored :
    (next? (exec (.pollIgnored 0) { settled with state := .waitHigh, cnt := 7#9, winMs := 1#8 })).map
      (fun t => (t.state, t.cnt, t.winMs, t.doneR)) = some (.waitHigh, 7#9, 1#8, false) := by decide
/-- R103. -/
theorem test_readOutcome :
    (next? (exec .readOutcome { settled with outcome := 4#3 })).map (fun t => (t.observed, t.draw)) =
      some ([.outcome 4#3], 0) := by decide
/-- I10: a reserved code is refused. -/
theorem test_readOutcome_reserved :
    refusal? (exec .readOutcome { settled with outcome := 6#3 }) = some .reservedOutcome := by decide
/-- V-P1. -/
theorem test_readId :
    (next? (exec .readId { settled with id := ident1 })).map (·.observed) = some [.ident 0x8967452301#40] := by decide
/-- V-P2, index 4. -/
theorem test_readIdByte_4 :
    (next? (exec (.readIdByte 4) { settled with id := ident1 })).map (·.observed) = some [.idByte 0x89#8] := by decide
/-- V-P2, indices 5 and 255. -/
theorem test_readIdByte_beyond :
    (next? (exec (.readIdByte 5) { settled with id := ident1 })).map (·.observed) = some [.idByte 0#8] ∧
    (next? (exec (.readIdByte 255) { settled with id := ident1 })).map (·.observed) = some [.idByte 0#8] := by decide
/-- R106. -/
theorem test_tagEvent :
    (next? (exec .tagEvent { settled with tagR := true })).map (fun t => (t.observed, t.tagR)) =
      some ([.tag true], true) := by decide
/-- R102, R36. -/
theorem test_waitDone :
    (next? (exec .waitDone { settled with state := .row })).map (·.observed) = some [.done false true] := by decide

/-! ## Vectors for the shared operations and the reference functions -/

/-- R120: `c2` is the pin as it was two cycles earlier, for a clock phase of two periods. -/
theorem test_synchronizer :
    (next? (runCycles [clkHigh, clkHigh] settled)).map (fun t => (t.c1, t.c2)) = some (true, true) ∧
    (next? (runCycles [clkHigh, clkHigh, Inputs.quiet] settled)).map (fun t => (t.c1, t.c2)) =
      some (false, true) := by decide
/-- R241 item 1: what the edge of a one-period phase captured is a draw in the next cycle. -/
theorem test_short_phase_is_drawn :
    (next? (runCycles [clkHigh, Inputs.quiet] settled)).map (fun t => t.c2) = some (Config.freeClkCapture 0) := rfl
/-- R241 item 2: data that rises with the clock is a draw for the sample. -/
theorem test_late_data_is_drawn :
    (next? (runCycles [{ clkHigh with rfidData := .high }] settled)).map (fun t => (t.c1, t.d1)) =
      some (true, Config.freeDataCapture 0) := rfl
/-- V-T6: saturation at 255. -/
theorem test_tickInc : tickInc true 255#8 = 255#8 ∧ tickInc true 2#8 = 3#8 ∧ tickInc false 2#8 = 2#8 := by decide
/-- V-T2: 2 is not greater than 2; V-T1: 3 is. -/
theorem test_timedOut :
    timedOut { settled with winMs := 2#8, edgeMs := 2#8 } = false ∧
    timedOut { settled with winMs := 3#8 } = true ∧ timedOut { settled with edgeMs := 3#8 } = true := by decide
/-- V-RW1: rows 01011, 10111, 11110. -/
theorem test_row_values :
    (RowSamples.mk false true false true true).value = 0xA#4 ∧ (RowSamples.mk false true false true true).parity = true ∧
    (RowSamples.mk true false true true true).value = 0xD#4 ∧ (RowSamples.mk true false true true true).parity = false ∧
    (RowSamples.mk true true true true false).value = 0xF#4 := by decide
/-- V-A1 and V-A4. -/
theorem test_assemble :
    assemble nib1 = ident1 ∧ disassemble ident1 = nib1 ∧
    assemble #v[0#4, 0#4, 0#4, 0#4, 0#4, 0#4, 0#4, 0#4, 0#4, 1#4] = #v[0#8, 0#8, 0#8, 0#8, 0x10#8] := by decide
/-- 2.12: F1 written out is the frame of 01 23 45 67 89. -/
theorem test_frameBits : frameBits ident1 = f1 := by decide
/-- V-D1. -/
theorem test_decode_f1 : decodeSamples f1 = (5#3, some ident1) ∧ postCycles f1 = 21 := by decide
/-- V-D4: a leading 0 and one sample short. -/
theorem test_decode_short :
    decodeSamples (false :: f1.dropLast) = (0#3, none) ∧ postCycles (false :: f1.dropLast) = 22 := by decide
/-- V-D13: STOP_BIT before COL_PARITY. -/
theorem test_decode_stop_first : decodeSamples (f1Rows ++ samplesOf [0,0,0,0,1]) = (4#3, none) := by decide
/-- V-H7 and V-H6. -/
theorem test_headerEnd :
    headerEnd (List.replicate 12 true) = some 9 ∧
    headerEnd (List.replicate 8 true ++ false :: List.replicate 8 true) = none := by decide
/-- P6's stimulus: `d[3][2]^=1` changes the third sample of data row 3, 11101 to 11001. -/
theorem test_frameChanged :
    (frameChanged ident1 (.data 3 2)).drop 24 = (samplesOf [1,1,0,0,1]) ++ f1.drop 29 ∧
    (frameChanged ident1 (.columnParity 1#4)).drop 59 = samplesOf [0,0,0,0,0] ∧
    (frameChanged ident1 .stop).drop 59 = samplesOf [1,0,0,0,1] := by decide
/-- P3's first cycles as events, and READ without a cycle (R86). -/
theorem test_command_events :
    Command.events .startHigh = [.drive { startInputs with rfidClk := .high }] ∧
    Command.events (.read 4#8) = [.observe (.idByte 4#8)] ∧ (Command.events (.bit true)).length = 4 ∧
    Command.inputs (.tick 1) = [{ Inputs.quiet with msTick := true }] := by decide
/-- V-P3 and V-P6. -/
theorem test_hex :
    identifierHex .ascending false ident1 10 = "0123456789".toList ++ [hexTerminator] ∧
    identifierHex .descending true ident1 5 = "8967".toList ++ [hexTerminator] := by decide
/-- V-P5. -/
theorem test_identifierCopy :
    identifierCopy #v[0xDE#8, 0xAD#8, 0xBE#8, 0xEF#8, 0x42#8] (List.replicate 6 0#8) 2 =
      [0xDE#8, 0xAD#8, 0#8, 0#8, 0#8, 0#8] ∧
    identifierCopy ident1 (List.replicate 6 7#8) 0 = List.replicate 6 7#8 := by decide
/-- R241 and R233: the BITs of R86 keep the reader timing; a phase of one period, data that moves with the rise or in
the second period after it, and an unsettled line do not; `NOP 2` keeps the host's duty. -/
theorem test_duties :
    readerKeepsTiming lowLines (bitInputs true ++ bitInputs false ++ [Inputs.quiet, Inputs.quiet]) = true ∧
    readerKeepsTiming lowLines [clkHigh, Inputs.quiet] = false ∧
    readerKeepsTiming lowLines [{ clkHigh with rfidData := .high }] = false ∧
    readerKeepsTiming lowLines [clkHigh, { clkHigh with rfidData := .high }] = false ∧
    readerKeepsTiming lowLines [clkHigh, clkHigh, { clkHigh with rfidData := .high }] = true ∧
    readerKeepsTiming lowLines [{ Inputs.quiet with rfidData := .unsettled }] = false ∧
    hostWaitsAfterReset [Inputs.quiet, Inputs.quiet] = true ∧
    hostWaitsAfterReset [Inputs.quiet, startInputs] = false := by decide

/-! ## Witnesses: states and operands that meet the statements' hypotheses -/

/-- A state in the middle of a poll. -/
def midPoll : State := finalOn 1#4 [1,0,0,0,0]

/-- FINAL about to commit SUCCESS (P1, before edge 286). -/
theorem witness_legal_final : Legal midPoll := by
  constructor <;> (try simp only [sampling, decoding, inFrame]) <;> decide

/-- ROW at its last data row. -/
theorem witness_legal_row : Legal lastRow := by
  constructor <;> (try simp only [sampling, decoding, inFrame]) <;> decide

/-- WAIT_HIGH about to take the last sample. -/
theorem witness_legal_waitHigh : Legal lastSample := by
  constructor <;> (try simp only [sampling, decoding, inFrame]) <;> decide

/-- IDLE and WAIT_LOW, with a buffer and a count left over. -/
theorem witness_legal_idle : Legal { loaded .idle f1 with row := 10#4, outcome := 5#3, doneR := true, tagR := true } := by
  constructor <;> (try simp only [sampling, decoding, inFrame]) <;> decide

theorem witness_legal_waitLow : Legal { loaded .waitLow f1 with windowMs := 2 } := by
  constructor <;> (try simp only [sampling, decoding, inFrame]) <;> decide

theorem witness_legal_hdrScan : Legal (loaded .hdrScan f1) := by
  constructor <;> (try simp only [sampling, decoding, inFrame]) <;> decide

/-- Legal states answer a next state, with and without an event in the script of their own. -/
theorem witness_legal_steps :
    (next? (step { midPoll with script := [.drive Inputs.quiet] })).isSome = true ∧
    (next? (step { lastRow with script := [.drive startInputs] })).isSome = true ∧
    (next? (step { lastSample with script := [.drive rstInputs] })).isSome = true ∧
    (next? (step { lastSample with script := [.observe .ident] })).isSome = true := by decide

/-- Two legal states that differ in registers that no longer matter. -/
theorem witness_live :
    Legal (loaded .idle f1) ∧ Legal settled ∧ LiveEq (loaded .idle f1) settled ∧ loaded .idle f1 ≠ settled := by
  refine ⟨?_, ?_, ?_, by decide⟩ <;> constructor <;> (try simp only [sampling, decoding, inFrame]) <;> decide

/-- ROW after no row yet: an accumulator entry not yet written does not matter. -/
theorem witness_live_row :
    LiveEq (loaded .row f1) { loaded .row f1 with nib := nib1, winMs := 7#8 } := by
  constructor <;> (try simp only [sampling, decoding, inFrame]) <;> decide

theorem witness_resetPort : ({ midPoll with ports := rstInputs }).ports.rst = true := by decide

/-- ResetTakesTheResetColumn and PollWithinTwoCyclesOfResetIsRejected: a reset state to start from, from the middle of
a poll, and inputs of each kind. -/
theorem witness_resetColumn : AtResetColumn midPoll (resetEdge midPoll) := by
  constructor <;> decide

theorem witness_pollAfterReset :
    startInputs.rst = false ∧ startInputs.start = true ∧ Inputs.quiet.rst = false ∧ Inputs.quiet.start = false ∧
    Inputs.quiet.rfidClk = .low ∧ ({ Inputs.quiet with rfidClk := .high }).rfidClk = .high ∧
    (next? (cycleWith Inputs.quiet (resetEdge midPoll))).isSome = true ∧
    (next? (runCycles [Inputs.quiet, startInputs] (resetEdge midPoll))).isSome = true := by decide

theorem witness_wf :
    (Instr.readIdByte 0).wf = true ∧ (Instr.readIdByte 255).wf = true ∧ (Instr.reset true true 255).wf = true ∧
    (Instr.cycle false 0).wf = true ∧ (Instr.poll 255).wf = true ∧ (Instr.pollIgnored 255).wf = true := by decide

/-- EncodeOfDecodeIsThePacket: packets that decode, at both ends of the index. -/
theorem witness_decoded :
    ok? (decode [7#8]) = some StateName.unused7.instr ∧
    ok? (decode [255#8, 7#8]) = some (decodePort true true true 255) ∧
    ok? (decode [0#8, 0#8]) = some (decodePort false false false 0) := by decide

/-- TableRowsDecodeByMaskAndMatch: words under each mask. -/
theorem witness_tableWords :
    0x7FF#11 &&& 0x400#11 = 0x400#11 ∧ 0x400#11 &&& 0x400#11 = 0x400#11 ∧ 0x1FF#11 &&& 0x600#11 = 0x000#11 ∧
    0x3FF#11 &&& 0x700#11 = 0x300#11 ∧ 0x2FF#11 &&& 0x700#11 = 0x200#11 := by decide

/-- StepRunsTheDecodedInstruction and its companions: a cycle, an observation, and an empty script. -/
theorem witness_events :
    (fetch { lastSample with script := [.drive Inputs.quiet] }).2.ports = Inputs.quiet ∧
    ok? (decode (fetch { settled with script := [.drive startInputs] }).1) = some (.poll 0) ∧
    ok? (decode (fetch { lastSample with script := [.drive startInputs] }).1) = some (.pollIgnored 0) ∧
    ok? (decode (fetch { lastSample with script := [.observe (.idByte 4#8)] }).1) = some (.readIdByte 4) ∧
    Inputs.quiet.rst = false ∧ Inputs.quiet.start = false ∧ State.reset.script = [] := by decide

theorem witness_placed :
    (Instr.poll 5).wf = true ∧ (Instr.poll 5 ≠ StateName.idle.instr ∧ Instr.poll 5 ≠ StateName.row.instr) ∧
    StateName.final.instr.wf = true := by decide

/-- SynchronizerRunsInEveryCycle and PollWithinTwoCyclesOfResetIsRejected: cycles that keep R241. -/
theorem witness_timingKept :
    readerKeepsTiming lowLines [Inputs.quiet, clkHigh] = true ∧ readerKeepsTiming lowLines [clkHigh, clkHigh] = true ∧
    lowLines.dataSetup clkHigh = false ∧ lowLines.dataHold clkHigh = false ∧
    ((resetEdge midPoll).lines.push Inputs.quiet).shortPhase Inputs.quiet = false := by decide

/-- ReaderTimingViolationMakesTheCaptureADraw and ReaderTimingIsTwoPeriodPhasesAndStableData: each way to break R241. -/
theorem witness_timingBroken :
    (lowLines.push clkHigh).shortPhase Inputs.quiet = true ∧
    lowLines.dataSetup { clkHigh with rfidData := .high } = true ∧
    (lowLines.push clkHigh).dataHold { clkHigh with rfidData := .high } = true ∧
    ((lowLines.push clkHigh).push clkHigh).dataHold { clkHigh with rfidData := .high } = false ∧
    ({ clkHigh with rfidClk := .unsettled }).rfidClk = .unsettled := by decide

/-- CommitEndsThePollAndChangesNothingElse: each of the six outcomes, and each state that commits NO_FRAME. -/
theorem witness_outcomes :
    pollOutcome { State.reset with ports := startInputs } = some 0#3 ∧
    pollOutcome { loaded .hdrScan f1 with ptr := 64#9 } = some 0#3 ∧
    pollOutcome { loaded .row f1 with ptr := 60#9 } = some 0#3 ∧
    pollOutcome { loaded .final f1 with ptr := 60#9 } = some 0#3 ∧
    pollOutcome { settled with state := .checkCount, cnt := 63#9 } = some 1#3 ∧
    pollOutcome (loaded .row (samplesOf [0,0,0,1,0])) = some 2#3 ∧
    pollOutcome (finalOn 0#4 [1,0,0,0,0]) = some 3#3 ∧ pollOutcome (finalOn 0#4 [1,0,0,0,1]) = some 4#3 ∧
    pollOutcome midPoll = some 5#3 ∧ midPoll.cnt.toNat ≤ 256 := by decide

/-- CyclesWithoutCommitKeepTheOutputs: one such cycle in every control state that has one. -/
theorem witness_noCommit :
    pollOutcome settled = none ∧ pollOutcome lastSample = none ∧ pollOutcome { lastSample with state := .waitLow } = none ∧
    pollOutcome { settled with state := .checkCount, cnt := 64#9 } = none ∧ pollOutcome (loaded .hdrScan f1) = none ∧
    pollOutcome lastRow = none ∧ (next? (cycleWith Inputs.quiet lastRow)).isSome = true := by decide

/-- IdentifierChangesOnlyWithSuccess: both ways it changes. -/
theorem witness_identifierChanges :
    ((next? (step { midPoll with script := [.drive Inputs.quiet] })).map fun t => decide (t.id ≠ midPoll.id)) = some true ∧
    ((next? (step { midPoll with id := ident1, script := [.drive rstInputs] })).map fun t => decide (t.id ≠ ident1)) =
      some true := by decide

/-- OutputsHoldWhileThePollRuns: two cycles out of IDLE. -/
theorem witness_pollRuns :
    noReset [Inputs.quiet, startInputs] ∧ (lastRow.state ≠ .idle) ∧
    ((next? (runCycles [Inputs.quiet] lastRow)).map (·.state)) = some .final ∧
    ((next? (runCycles [Inputs.quiet, startInputs] lastSample)).map (·.state)) = some .hdrScan := by
  refine ⟨by simp [noReset, Inputs.quiet, startInputs], by decide, by decide, by decide⟩

/-- BufferIsAppendOnly: the buffer does change. -/
theorem witness_append :
    ((next? (step { lastSample with script := [.drive Inputs.quiet] })).map fun t => (t.cnt, t.buf)) =
      some (256#9, [(255, true)]) := by decide

/-- The state actions, clause by clause, at the boundaries of their conditions. -/
theorem witness_idle_clauses :
    (settled.ports.rst = false ∧ settled.ports.start = false) ∧ (startInputs.start = true ∧ State.reset.c2 = true) ∧
    settled.c2 = false := by decide

theorem witness_waitHigh_clauses :
    ({ lastSample with winMs := 3#8 }).windowMs < 3 ∧ timedOut lastSample = false ∧ lastSample.c2 = true ∧
    lastSample.cnt.toNat = 255 ∧ ({ lastSample with cnt := 254#9 }).cnt.toNat < 255 ∧
    ({ lastSample with c2 := false }).c2 = false ∧
    fault? (exec .waitHigh { lastSample with cnt := 256#9 }) = some .bufferIndex := by decide

theorem witness_waitLow_clauses :
    timedOut { lastSample with state := .waitLow, edgeMs := 2#8, winMs := 2#8 } = false ∧
    timedOut { lastSample with state := .waitLow, edgeMs := 3#8 } = true := by decide

theorem witness_checkCount_clauses : (63#9).toNat < 64 ∧ 64 ≤ (64#9).toNat ∧ settled.ports.rst = false := by decide

theorem witness_hdrScan_clauses :
    (loaded .hdrScan f1).ptr.toNat < (loaded .hdrScan f1).cnt.toNat ∧
    ({ loaded .hdrScan f1 with ptr := 64#9 }).cnt.toNat ≤ 64 ∧
    (loaded .hdrScan f1).buf.get 0 = true ∧ (loaded .hdrScan f1).buf.get 9 = false ∧
    ({ loaded .hdrScan f1 with hdr := 1#4 }).hdr = 1#4 ∧ 1 < (2#4).toNat ∧
    ((next? (exec .hdrScan { loaded .hdrScan f1 with hdr := 0#4 })).map (·.ptr)) = some 1#9 ∧
    fault? (exec .hdrScan { loaded .hdrScan f1 with cnt := 257#9, ptr := 256#9 }) = some .bufferIndex := by decide

theorem witness_row_clauses :
    ¬(60 + 5 ≤ (loaded .row f1).cnt.toNat) ∧ 59 + 5 ≤ (loaded .row f1).cnt.toNat ∧
    (rowOf (loaded .row (samplesOf [0,0,0,1,0]))).parity = true ∧ (rowOf lastRow).parity = false ∧
    lastRow.row.toNat = 9 ∧
    fault? (exec .row { lastRow with row := 10#4 }) = some .accumulatorIndex ∧
    fault? (exec .row { lastRow with cnt := 257#9, ptr := 252#9 }) = some .bufferIndex := by decide

theorem witness_final_clauses :
    (rowOf (finalOn 0#4 [0,0,0,0,1])).s4 = true ∧ (rowOf midPoll).s4 = false ∧
    midPoll.colx ^^^ (rowOf midPoll).value = 0#4 ∧ (finalOn 0#4 [1,0,0,0,0]).colx ^^^ 1#4 ≠ 0#4 ∧
    midPoll.ptr.toNat + 5 ≤ midPoll.cnt.toNat ∧
    fault? (exec .final { midPoll with cnt := 257#9, ptr := 252#9 }) = some .bufferIndex := by decide

theorem witness_unused7 : settled.ports.rst = false ∧ settled.state ≠ .unused7 := by decide

/-- PollStartsOneAttempt, StartIsIgnoredWhileBusy, ReadOutcomeGivesTheLastOutcome, ReadIdByteGivesOneByteOrZero. -/
theorem witness_host_clauses :
    State.reset.state = .idle ∧ State.reset.c2 = true ∧ settled.state = .idle ∧ settled.c2 = false ∧
    lastSample.state ≠ .idle ∧ (5#3).toNat ≤ 5 ∧ 5 < (6#3).toNat ∧ (4 < 5 ∧ 255 < 256) := by decide

/-- TagPulseLastsOneCycle: a pulse, and a quiet cycle after it. -/
theorem witness_pulse :
    ((next? (cycleWith Inputs.quiet midPoll)).map fun t => (t.doneR, t.tagR, t.c2)) = some (true, true, false) ∧
    (next? (runCycles [Inputs.quiet, Inputs.quiet] midPoll)).isSome = true := by decide

/-- The timer statements: into, inside and out of sampling. -/
theorem witness_sampling : sampling lastSample ∧ ¬sampling settled ∧ lastSample.windowMs ≤ 2 := by
  simp only [sampling]; decide

theorem witness_sampling_ends :
    ((next? (cycleWith Inputs.quiet lastSample)).map (·.state)) = some .checkCount ∧
    ((next? (cycleWith Inputs.quiet { lastSample with winMs := 3#8 })).map fun t => (t.state, t.cnt)) =
      some (.checkCount, 255#9) ∧
    ((next? (cycleWith startInputs settled)).map (·.state)) = some .waitHigh := by decide

/-- TicksEndSampling: the three ticks of P1. -/
theorem witness_ticks :
    Config.windowOk lastSample.windowMs = true ∧
    noReset (List.replicate 3 { Inputs.quiet with msTick := true } ++ [Inputs.quiet]) ∧
    lastSample.windowMs + 1 ≤ (List.replicate 3 { Inputs.quiet with msTick := true }).countP (fun q => q.msTick) := by
  refine ⟨by decide, by simp [noReset, Inputs.quiet], by decide⟩

/-- StoppedClockWithoutTicksHangs: a low clock in WAIT_HIGH, a high one in WAIT_LOW. -/
theorem witness_stopped :
    (∀ p ∈ [Inputs.quiet, Inputs.quiet], p.rst = false ∧ p.msTick = false ∧ p.rfidClk = .low) ∧
    timedOut { settled with state := .waitHigh } = false ∧
    ({ settled with state := .waitLow, c1 := true, c2 := true }).c1 = true ∧ settled.lines.clk ≠ .high ∧
    (lowLines.push clkHigh).clk ≠ .low ∧
    (∀ p ∈ [{ Inputs.quiet with rfidClk := .high }], p.rst = false ∧ p.msTick = false ∧ p.rfidClk = .high) := by decide

/-- ColumnParityCoversAllElevenRows: columns that cancel and columns that do not, in legal states. -/
theorem witness_columns :
    midPoll.state = .final ∧ midPoll.ports.rst = false ∧ midPoll.ptr.toNat + 5 ≤ midPoll.cnt.toNat ∧
    (rowOf midPoll).s4 = false ∧ (rowOf midPoll).value = 1#4 ∧ nibXor midPoll.nib 10 = 1#4 ∧
    (rowOf (finalOn 1#4 [0,1,0,1,0])).value = 0xA#4 := by decide

/-- HeaderScanIsTheParallelMatch: a match and none, and the numbers of cycles. -/
theorem witness_scan :
    (loaded .hdrScan f1).ptr = 0#9 ∧ (loaded .hdrScan f1).hdr = 9#4 ∧ (loaded .hdrScan f1).cnt.toNat ≤ 256 ∧
    headerEnd (loaded .hdrScan f1).samples = some 9 ∧
    headerEnd (loaded .hdrScan (List.replicate 8 true)).samples = none ∧
    (List.replicate 9 Inputs.quiet).length = 9 := by decide

/-- PollCommitsDecodeOfItsSamples: the samples of V-D1 and of V-CC2. -/
theorem witness_postSampling :
    (loaded .checkCount f1).state = .checkCount ∧ (loaded .checkCount f1).samples = f1 ∧
    postCycles (loaded .checkCount f1).samples = 21 ∧ postCycles (loaded .checkCount (f1.take 63)).samples = 1 := by decide

/-- SamplerTakesExactlyTheDrivenBits (in WAIT_HIGH) and PollOfAValidFrameSucceeds (in IDLE): a settled low clock. -/
theorem witness_sampler :
    settled.c1 = false ∧ settled.c2 = false ∧ settled.cnt = 0#9 ∧ settled.buf.wf = true ∧
    timedOut settled = false ∧ settled.lines.clk ≠ .high ∧
    ({ settled with state := .waitHigh }).state = .waitHigh ∧ (samplesOf [1]) ≠ [] ∧ (samplesOf [1]).length ≤ 256 ∧
    settled.windowMs = 2 ∧ settled.state = .idle := by decide

/-- The longest string the sampler statement speaks of. -/
theorem witness_fullBuffer : (List.replicate 256 true).length = 256 ∧ List.replicate 256 true ≠ [] :=
  ⟨List.length_replicate, List.cons_ne_nil true (List.replicate 255 true)⟩

/-- ChangedDataParityOrStopSampleIsDetected: the ends of its three ranges, with the outcomes of V-SF. -/
theorem witness_changed :
    decodeSamples (flipSample f1 9) = (2#3, none) ∧ decodeSamples (flipSample f1 58) = (2#3, none) ∧
    decodeSamples (flipSample f1 59) = (3#3, none) ∧ decodeSamples (flipSample f1 62) = (3#3, none) ∧
    decodeSamples (flipSample f1 63) = (4#3, none) := by decide

/-- AccumulatorFillsBackToFront, HexStringIsTenDigitsTruncated: their ranges. -/
theorem witness_arrays :
    (nibWrite nib1 (Fin.ofNat 10 (9 - 0)) 5#4)[9] = 5#4 ∧ (nibWrite nib1 (Fin.ofNat 10 (9 - 9)) 5#4)[0] = 5#4 ∧
    HexByteOrder.ascending.indices[4]? = some 4 ∧
    HexByteOrder.descending.indices[4]? = some 0 := by decide

end Sys2Proof.Tests
end

