-- ==== Sys2Proof/Proofs/Outputs.lean ====
section
/-! SUPPORT. The outputs of R36 to R40, each as a function of the registers: one rule per output. -/

namespace Sys2Proof.Machine

theorem busyO_iff (s : State) : busyO s = true ↔ s.state ≠ .idle := decide_eq_true_iff

@[simp] theorem doneO_eq (s : State) : doneO s = s.doneR := rfl

@[simp] theorem tagReadO_eq (s : State) : tagReadO s = s.tagR := rfl

@[simp] theorem outcomeO_eq (s : State) : outcomeO s = s.outcome := rfl

/-- R39: the bytes are appended highest first, so the slice of byte `k` drops the higher bytes one by one and then is
one side of the append that is left. -/
theorem idO_byte (s : State) (k : Fin 5) : (idO s).extractLsb' (8 * k.val) 8 = s.id[k] := by
  unfold idO
  match k with
  | 0 =>
    iterate 3 rw [BitVec.extractLsb'_append_eq_of_add_le (by decide)]
    exact BitVec.extractLsb'_append_eq_right
  | 1 =>
    iterate 3 rw [BitVec.extractLsb'_append_eq_of_add_le (by decide)]
    exact BitVec.extractLsb'_append_eq_left
  | 2 =>
    iterate 2 rw [BitVec.extractLsb'_append_eq_of_add_le (by decide)]
    exact BitVec.extractLsb'_append_eq_left
  | 3 =>
    rw [BitVec.extractLsb'_append_eq_of_add_le (by decide)]
    exact BitVec.extractLsb'_append_eq_left
  | 4 => exact BitVec.extractLsb'_append_eq_left

theorem identByte_of_lt (id : Ident) {k : Nat} (h : k < 5) : identByte id k = id[k] := dif_pos h

theorem identByte_of_ge (id : Ident) {k : Nat} (h : 5 ≤ k) : identByte id k = 0#8 := dif_neg (Nat.not_lt.2 h)

/-- Settles O42, one rule per output: a read of a register, a slice of the concatenation, or the bounded byte read. -/
theorem outputsAreFunctionsOfTheRegisters : Obligations.OutputsAreFunctionsOfTheRegisters := by
  intro s
  exact ⟨busyO_iff s, by rw [doneO_eq], by rw [tagReadO_eq], outcomeO_eq s, idO_byte s,
    identByte_of_lt s.id, identByte_of_ge s.id⟩

end Sys2Proof.Machine
end

namespace Sys2Proof.Machine

/-! SUPPORT. The bits of the row value of R57, and of one step of its right-shift realisation. -/

/-- The entering sample becomes bit 3. -/
theorem shiftIn_bit_three (acc : Nibble) (s : Sample) : (shiftIn acc s).getLsbD 3 = s := by
  rw [shiftIn, BitVec.getLsbD_append]
  simp

/-- Every other bit moves down one place. -/
theorem shiftIn_bit_of_lt (acc : Nibble) (s : Sample) {j : Nat} (h : j < 3) :
    (shiftIn acc s).getLsbD j = acc.getLsbD (j + 1) := by
  rw [shiftIn, BitVec.getLsbD_append]
  simp [h, Nat.add_comm]

/-- Bit `j` of the row value is the sample at position `j`. -/
theorem RowSamples.value_bit (r : RowSamples) (j : Fin 4) : r.value.getLsbD j = #v[r.s0, r.s1, r.s2, r.s3][j] := by
  unfold RowSamples.value
  match j with
  | 0 | 1 | 2 | 3 => simp only [BitVec.getLsbD_append]; simp

/-- After four shifts bit `j` is the sample that entered at bit 3 and then moved down `3 - j` places; nothing of the
start value is left. -/
theorem fourShifts_bit (r : RowSamples) (acc : Nibble) (j : Fin 4) :
    (shiftIn (shiftIn (shiftIn (shiftIn acc r.s0) r.s1) r.s2) r.s3).getLsbD j = #v[r.s0, r.s1, r.s2, r.s3][j] := by
  match j with
  | 0 | 1 | 2 | 3 => simp [-BitVec.getLsbD_eq_getElem, shiftIn_bit_three, shiftIn_bit_of_lt]

/-- Settles O48: the shifted nibble and the row value have the same bits, the samples from the earliest on. -/
theorem rowValueIsFourRightShifts : Obligations.RowValueIsFourRightShifts := by
  intro r acc
  have hshift : shiftIn (shiftIn (shiftIn (shiftIn acc r.s0) r.s1) r.s2) r.s3 = r.value :=
    BitVec.eq_of_getLsbD_eq fun j hj => (fourShifts_bit r acc ⟨j, hj⟩).trans (r.value_bit ⟨j, hj⟩).symm
  exact ⟨hshift, r.value_bit 0, r.value_bit 1, r.value_bit 2, r.value_bit 3⟩

end Sys2Proof.Machine

namespace Sys2Proof.Machine

/-! SUPPORT. What one step does: a cycle or an observation, by the first event of the script; and what that says of
the control state (R41, R81 to R83). -/

/-- R83: each port row, run with the inputs that name it at the ports, is R41's `step(S, I)`: the drive of the row
puts on the ports what is there already, POLL has IDLE's action because `state` is IDLE, and POLL_IGNORED clears a
start request that no other action reads. -/
theorem exec_decodePort (p : Inputs) (s : State) :
    exec (decodePort p.rst p.start (decide (s.state = .idle)) p.idIdx.toNat) (s.takeInputs p) = cycleWith p s := by
  have hdrive : (s.takeInputs p).drive p.rst p.start p.idIdx.toNat = s.takeInputs p := drive_atPorts s p
  cases hr : p.rst <;> cases hs : p.start <;> rw [hr, hs] at hdrive
  case false.false => exact congrArg (clockEdge (stateAction s.state)) hdrive
  case false.true =>
    by_cases hn : s.state = .idle
    · rw [decide_eq_true hn]
      show clockEdge idleAction ((s.takeInputs p).drive false true p.idIdx.toNat) = clockEdge (stateAction s.state) _
      rw [hdrive, hn]
      rfl
    · rw [decide_eq_false hn]
      show clockEdge (fun old new => stateAction s.state { old with ports := { old.ports with start := false } } new)
        ((s.takeInputs p).drive false true p.idIdx.toNat) = clockEdge (stateAction s.state) _
      simp only [hdrive, stateAction_ignores_start _ hn]
  case true.false | true.true => exact congrArg (clockEdge (stateAction s.state)) hdrive

/-- A step whose next event is a cycle is that cycle. -/
theorem step_of_drive {s : State} {p : Inputs} {rest : List HostEvent} (h : s.script = .drive p :: rest) :
    step s = cycleWith p { s with script := rest } := by
  unfold step fetch
  rw [h]
  dsimp only
  rw [hostWord, decode_port]
  exact exec_decodePort p { s with script := rest }

/-- A step whose next event is an observation is that observation's row. -/
theorem step_of_observe {s : State} {o : Observation} {rest : List HostEvent} (h : s.script = .observe o :: rest) :
    step s = exec o.instr { s with script := rest } := by
  unfold step fetch
  rw [h]
  dsimp only
  rw [decode_observation]

/-- A step with no event left is a cycle with free inputs. -/
theorem step_of_empty {s : State} (h : s.script = []) : step s = cycleWith (Config.freeInputs s.draw) s := by
  unfold step fetch
  rw [h]
  dsimp only
  rw [hostWord, decode_port]
  exact exec_decodePort _ s

/-- A step that answers a next state is a cycle with free inputs, the cycle of the next event, or its observation. -/
theorem step_cases {s t : State} (h : step s = .next t) :
    (s.script = [] ∧ cycleWith (Config.freeInputs s.draw) s = .next t) ∨
    (∃ p rest, s.script = .drive p :: rest ∧ cycleWith p { s with script := rest } = .next t) ∨
    (∃ o rest, s.script = .observe o :: rest ∧ exec o.instr { s with script := rest } = .next t) := by
  match hs : s.script with
  | [] => exact .inl ⟨rfl, step_of_empty hs ▸ h⟩
  | .drive p :: rest => exact .inr (.inl ⟨p, rest, rfl, step_of_drive hs ▸ h⟩)
  | .observe o :: rest => exact .inr (.inr ⟨o, rest, rfl, step_of_observe hs ▸ h⟩)

/-- R64: an observation drives at most the byte index and notes what the host saw; READ_OUTCOME may refuse. -/
theorem exec_observation_cases {o : Observation} {s t : State} (h : exec o.instr s = .next t) :
    ∃ k v, t = ({ s with ports := { s.ports with idIdx := k } } : State).see v := by
  cases o with
  | outcome =>
    change execReadOutcome s = _ at h
    unfold execReadOutcome at h
    split at h
    · cases h; exact ⟨s.ports.idIdx, _, rfl⟩
    · cases h
  | ident => cases h; exact ⟨s.ports.idIdx, _, rfl⟩
  | idByte k => cases h; exact ⟨_, _, rfl⟩
  | tag => cases h; exact ⟨s.ports.idIdx, _, rfl⟩
  | done => cases h; exact ⟨s.ports.idIdx, _, rfl⟩

/-- R82: no action writes the unused code; where an action keeps the state, it keeps one that is not the unused code. -/
theorem stateAction_not_unused7 {n : StateName} {old new t : State} (h : stateAction n old new = .next t)
    (hold : old.state ≠ .unused7) (hnew : new.state ≠ .unused7) : t.state ≠ .unused7 := by
  cases n with
  | idle => obtain ⟨-, -, rfl⟩ | ⟨-, -, rfl⟩ | ⟨-, rfl⟩ := idleAction_cases h <;> simp [hnew]
  | waitHigh =>
    obtain ⟨-, rfl⟩ | ⟨-, -, rfl⟩ | ⟨-, -, -, rfl⟩ | ⟨-, -, -, rfl⟩ := waitHighAction_cases h <;> simp [hnew]
  | waitLow => obtain ⟨-, rfl⟩ | ⟨-, -, rfl⟩ | ⟨-, -, rfl⟩ := waitLowAction_cases h <;> simp [hnew]
  | checkCount => obtain ⟨-, rfl⟩ | ⟨-, rfl⟩ := checkCountAction_cases h <;> simp
  | hdrScan =>
    obtain ⟨-, rfl⟩ | ⟨-, -, ⟨-, -, rfl⟩ | ⟨-, -, rfl⟩ | ⟨-, rfl⟩⟩ := hdrScanAction_cases h <;> simp [hnew]
  | row =>
    obtain ⟨-, rfl⟩ | ⟨-, -, ⟨-, rfl⟩ | ⟨-, -, rfl⟩⟩ := rowAction_cases h
    · simp
    · simp
    · by_cases hlast : old.row = 9#4 <;> simp [hlast, hold]
  | final => obtain ⟨-, rfl⟩ | ⟨-, -, ⟨-, rfl⟩ | ⟨-, -, rfl⟩ | ⟨-, -, rfl⟩⟩ := finalAction_cases h <;> simp
  | unused7 => obtain rfl := unused7Action_cases (old := old) h; simp

/-- R82: no cycle from another state enters the unused code; a reset edge goes to IDLE. -/
theorem cycleWith_not_unused7 {p : Inputs} {s t : State} (h : cycleWith p s = .next t) (hs : s.state ≠ .unused7) :
    t.state ≠ .unused7 := by
  obtain ⟨-, rfl⟩ | ⟨-, hact⟩ := cycleWith_cases h
  · simp
  · exact stateAction_not_unused7 hact hs hs

/-- R80: the state that a code names has that code. -/
theorem code_ofCode (c : BitVec 3) : (StateName.ofCode c).code = c := by
  revert c
  decide

/-- Settles O13: `ofCode` and `code` undo each other, and every cycle event, whatever its reset and start inputs, is a
clock edge with the action of the row that the state register selects. -/
theorem stepRunsTheActionOfTheControlState : Obligations.StepRunsTheActionOfTheControlState := by
  refine ⟨fun c => ⟨StateName.ofCode c, code_ofCode c, fun m hm => by rw [← hm, ofCode_code]⟩, ?_⟩
  intro s p rest hscript _ _
  rw [step_of_drive hscript, exec_stateRow]
  rfl

/-- Settles O33: the action of the unused code is one write, and no step enters the code. -/
theorem unusedCodeGoesToIdle : Obligations.UnusedCodeGoesToIdle := by
  refine ⟨fun s hrst => clockEdge_run unused7Action s hrst, fun s t hs h => ?_⟩
  obtain ⟨-, hcycle⟩ | ⟨p, rest, -, hcycle⟩ | ⟨o, rest, -, hobs⟩ := step_cases h
  · exact cycleWith_not_unused7 hcycle hs
  · exact cycleWith_not_unused7 hcycle hs
  · obtain ⟨k, v, rfl⟩ := exec_observation_cases hobs
    exact hs

end Sys2Proof.Machine

namespace Sys2Proof.Machine

/-! SUPPORT. The row parity of R74 as the XOR of a list of samples. -/

/-- The XOR of a start value and a list of samples is clear exactly if the set ones among them are even in number. -/
theorem foldl_xor_eq_false_iff (l : List Sample) (b : Sample) :
    l.foldl xor b = false ↔ (b.toNat + l.count true) % 2 = 0 := by
  induction l generalizing b with
  | nil => cases b <;> simp
  | cons a l ih =>
    rw [List.foldl_cons, ih, List.count_cons]
    cases a with
    | false => simp
    | true => cases b <;> simp <;> omega

theorem RowSamples.parity_eq_foldl (r : RowSamples) : r.parity = [r.s0, r.s1, r.s2, r.s3, r.s4].foldl xor false := by
  simp [RowSamples.parity]

/-- Settles O49: the XOR rule for lists, on the five samples from a clear start value. -/
theorem rowParityIsEvenCount : Obligations.RowParityIsEvenCount := by
  intro r
  rw [r.parity_eq_foldl, foldl_xor_eq_false_iff]
  simp

end Sys2Proof.Machine

namespace Sys2Proof.Machine

/-! SUPPORT. What a non-reset cycle does to the outputs, by the causes of R201 to R207: it commits the outcome that its
cause names, or it leaves outcome and identifier alone and the pulses low (R37, R205, R111). -/

/-- The registers behind the outputs of `t` are those of `new`. -/
structure KeepsOutputs (new t : State) : Prop where
  outcome : t.outcome = new.outcome
  id : t.id = new.id
  doneR : t.doneR = new.doneR
  tagR : t.tagR = new.tagR

/-- R184, R205: the commit of `o`, with the identifier assembled exactly on SUCCESS. -/
def commitPoll (o : OutcomeCode) (old new : State) : State :=
  commit o { new with id := if o = OutcomeCode.success then assemble old.nib else new.id }

@[simp] theorem commitPoll_state (o : OutcomeCode) (old new : State) : (commitPoll o old new).state = .idle := rfl
@[simp] theorem commitPoll_doneR (o : OutcomeCode) (old new : State) : (commitPoll o old new).doneR = true := rfl
@[simp] theorem commitPoll_tagR (o : OutcomeCode) (old new : State) :
    (commitPoll o old new).tagR = decide (o = OutcomeCode.success) := rfl

theorem commitPoll_of_ne_success {o : OutcomeCode} (ho : o ≠ OutcomeCode.success) (old new : State) :
    commitPoll o old new = commit o new := by
  rw [commitPoll, if_neg ho]

/-- What the selected action leaves: the commit of the cycle's cause, or, with no cause, the outputs it got. -/
def CommitsCauseOrKeeps (old new t : State) : Prop :=
  (∃ o, pollOutcome old = some o ∧ t = commitPoll o old new) ∨ (pollOutcome old = none ∧ KeepsOutputs new t)

/-- A failed poll: its cause is not SUCCESS, so the identifier stays. -/
theorem CommitsCauseOrKeeps.of_failure {o : OutcomeCode} {old new : State} (h : pollOutcome old = some o)
    (ho : o ≠ OutcomeCode.success) : CommitsCauseOrKeeps old new (commit o new) :=
  .inl ⟨o, h, (commitPoll_of_ne_success ho old new).symm⟩

theorem idleAction_outputs {old new t : State} (hs : old.state = .idle) (h : idleAction old new = .next t) :
    CommitsCauseOrKeeps old new t := by
  obtain ⟨hstart, hc2, rfl⟩ | ⟨-, hc2, rfl⟩ | ⟨hstart, rfl⟩ := idleAction_cases h
  · exact .of_failure (by simp [pollOutcome, hs, hstart, hc2]) (by decide)
  · exact .inr ⟨by simp [pollOutcome, hs, hc2], rfl, rfl, rfl, rfl⟩
  · exact .inr ⟨by simp [pollOutcome, hs, hstart], rfl, rfl, rfl, rfl⟩

theorem waitHighAction_keepsOutputs {old new t : State} (h : waitHighAction old new = .next t) :
    KeepsOutputs new t := by
  obtain ⟨-, rfl⟩ | ⟨-, -, rfl⟩ | ⟨-, -, -, rfl⟩ | ⟨-, -, -, rfl⟩ := waitHighAction_cases h <;>
    exact ⟨rfl, rfl, rfl, rfl⟩

theorem waitLowAction_keepsOutputs {old new t : State} (h : waitLowAction old new = .next t) :
    KeepsOutputs new t := by
  obtain ⟨-, rfl⟩ | ⟨-, -, rfl⟩ | ⟨-, -, rfl⟩ := waitLowAction_cases h <;> exact ⟨rfl, rfl, rfl, rfl⟩

theorem checkCountAction_outputs {old new t : State} (hs : old.state = .checkCount)
    (h : checkCountAction old new = .next t) : CommitsCauseOrKeeps old new t := by
  obtain ⟨hcnt, rfl⟩ | ⟨hcnt, rfl⟩ := checkCountAction_cases h
  · exact .of_failure (by simp [pollOutcome, hs, hcnt]) (by decide)
  · exact .inr ⟨by simp [pollOutcome, hs, hcnt], rfl, rfl, rfl, rfl⟩

theorem hdrScanAction_outputs {old new t : State} (hs : old.state = .hdrScan) (h : hdrScanAction old new = .next t) :
    CommitsCauseOrKeeps old new t := by
  obtain ⟨hend, rfl⟩ | ⟨hmore, -, hscan⟩ := hdrScanAction_cases h
  · exact .of_failure (by simp [pollOutcome, hs, hend]) (by decide)
  · refine .inr ⟨by simp [pollOutcome, hs, hmore], ?_⟩
    obtain ⟨-, -, rfl⟩ | ⟨-, -, rfl⟩ | ⟨-, rfl⟩ := hscan <;> exact ⟨rfl, rfl, rfl, rfl⟩

theorem rowAction_outputs {old new t : State} (hs : old.state = .row) (h : rowAction old new = .next t) :
    CommitsCauseOrKeeps old new t := by
  obtain ⟨hshort, rfl⟩ | ⟨hfit, -, ⟨hpar, rfl⟩ | ⟨hpar, -, rfl⟩⟩ := rowAction_cases h
  · exact .of_failure (by simp [pollOutcome, hs, hshort]) (by decide)
  · exact .of_failure (by simp [pollOutcome, hs, hfit, hpar]) (by decide)
  · exact .inr ⟨by simp [pollOutcome, hs, hfit, hpar], rfl, rfl, rfl, rfl⟩

/-- FINAL commits in every case that fits the buffer. -/
theorem finalAction_outputs {old new t : State} (hs : old.state = .final) (h : finalAction old new = .next t) :
    CommitsCauseOrKeeps old new t := by
  obtain ⟨hshort, rfl⟩ | ⟨hfit, -, ⟨hstop, rfl⟩ | ⟨hstop, hcol, rfl⟩ | ⟨hstop, hcol, rfl⟩⟩ := finalAction_cases h
  · exact .of_failure (by simp [pollOutcome, hs, hshort]) (by decide)
  · exact .of_failure (by simp [pollOutcome, hs, hfit, hstop]) (by decide)
  · exact .of_failure (by simp [pollOutcome, hs, hfit, hstop, hcol]) (by decide)
  · exact .inl ⟨OutcomeCode.success, by simp [pollOutcome, hs, hfit, hstop, hcol], rfl⟩

/-- R205: the action that `state` selects commits exactly its cause. -/
theorem stateAction_outputs {old new t : State} (h : stateAction old.state old new = .next t) :
    CommitsCauseOrKeeps old new t := by
  cases hs : old.state <;> rw [hs] at h
  case idle => exact idleAction_outputs hs h
  case waitHigh => exact .inr ⟨by simp [pollOutcome, hs], waitHighAction_keepsOutputs h⟩
  case waitLow => exact .inr ⟨by simp [pollOutcome, hs], waitLowAction_keepsOutputs h⟩
  case checkCount => exact checkCountAction_outputs hs h
  case hdrScan => exact hdrScanAction_outputs hs h
  case row => exact rowAction_outputs hs h
  case final => exact finalAction_outputs hs h
  case unused7 =>
    obtain rfl := unused7Action_cases (old := old) h
    exact .inr ⟨by simp [pollOutcome, hs], rfl, rfl, rfl, rfl⟩

/-- R37, R205: the same for a non-reset cycle, whose edge first takes the pulses down. -/
theorem cycleWith_outputs {p : Inputs} {s t : State} (hrst : p.rst = false) (h : cycleWith p s = .next t) :
    CommitsCauseOrKeeps (s.takeInputs p) (captureEdge (s.takeInputs p)) t := by
  obtain ⟨hreset, -⟩ | ⟨-, hact⟩ := cycleWith_cases h
  · simp [hrst] at hreset
  · exact stateAction_outputs hact

/-- R37: a cycle with no cause ends with both pulses low. -/
theorem cycleWith_pulses_low {p : Inputs} {s t : State} (hrst : p.rst = false)
    (hnone : pollOutcome (s.takeInputs p) = none) (h : cycleWith p s = .next t) : t.doneR = false ∧ t.tagR = false := by
  obtain ⟨o, hsome, -⟩ | ⟨-, hkeep⟩ := cycleWith_outputs hrst h
  · simp [hnone] at hsome
  · exact ⟨hkeep.doneR, hkeep.tagR⟩

/-- R121: an IDLE cycle without a start request, or with an inactive clock, has no cause to commit. -/
theorem pollOutcome_idle_eq_none {s : State} (hs : s.state = .idle) (h : s.ports.start = false ∨ s.c2 = false) :
    pollOutcome s = none := by
  simp only [pollOutcome, hs]
  exact if_neg fun ⟨hstart, hc2⟩ => by simp [hstart, hc2] at h

/-- R205: a non-reset cycle that raises `done_r` ends in IDLE. -/
theorem cycleWith_idle_of_done {p : Inputs} {s t : State} (hrst : p.rst = false) (h : cycleWith p s = .next t)
    (hdone : t.doneR = true) : t.state = .idle := by
  obtain ⟨o, -, rfl⟩ | ⟨-, hkeep⟩ := cycleWith_outputs hrst h
  · exact commitPoll_state _ _ _
  · simp [hkeep.doneR] at hdone

/-- Settles O41: the pulses are those of the commit, if the cycle has a cause, and else the edge's default; a commit
ends in IDLE, where the next cycle has a cause only if it starts on an active clock. -/
theorem tagPulseLastsOneCycle : Obligations.TagPulseLastsOneCycle := by
  intro s t p hrst h
  refine ⟨?_, ?_, fun hdone q u hrstq hquiet hnext => ?_⟩
  · obtain ⟨o, hcause, rfl⟩ | ⟨hcause, hkeep⟩ := cycleWith_outputs hrst h
    · simp [hcause, OutcomeCode.success]
    · simp [hcause, hkeep.tagR]
  · obtain ⟨o, hcause, rfl⟩ | ⟨hcause, hkeep⟩ := cycleWith_outputs hrst h
    · simp [hcause]
    · simp [hcause, hkeep.doneR]
  · have hidle : t.state = .idle := cycleWith_idle_of_done hrst h hdone
    exact cycleWith_pulses_low hrstq (pollOutcome_idle_eq_none hidle hquiet) hnext

/-- R111: a non-reset cycle that does not end in IDLE has committed nothing. -/
theorem cycleWith_busy_keeps {p : Inputs} {s t : State} (hrst : p.rst = false) (h : cycleWith p s = .next t)
    (hbusy : t.state ≠ .idle) : t.outcome = s.outcome ∧ t.id = s.id := by
  obtain ⟨o, -, rfl⟩ | ⟨-, hkeep⟩ := cycleWith_outputs hrst h
  · exact absurd (commitPoll_state _ _ _) hbusy
  · exact ⟨hkeep.outcome, hkeep.id⟩

theorem runCycles_cons_of_next {p : Inputs} {s u : State} (h : cycleWith p s = .next u) (ps : List Inputs) :
    runCycles (p :: ps) s = runCycles ps u := by
  rw [runCycles, h]

theorem runCycles_cons_cases {p : Inputs} {ps : List Inputs} {s t : State} (h : runCycles (p :: ps) s = .next t) :
    ∃ u, cycleWith p s = .next u ∧ runCycles ps u = .next t := by
  unfold runCycles at h
  split at h
  · exact ⟨_, ‹_›, h⟩
  · cases h
  · cases h

/-- R111 on the registers: a run without a reset, no cycle of which ends in IDLE, keeps outcome and identifier. -/
theorem runCycles_busy_keeps {ps : List Inputs} {s t : State} (hrst : noReset ps) (h : runCycles ps s = .next t)
    (hbusy : ∀ k u, k < ps.length → runCycles (ps.take (k + 1)) s = .next u → u.state ≠ .idle) :
    t.outcome = s.outcome ∧ t.id = s.id := by
  induction ps generalizing s with
  | nil => cases h; exact ⟨rfl, rfl⟩
  | cons p ps ih =>
    obtain ⟨u, hfirst, hrest⟩ := runCycles_cons_cases h
    obtain ⟨hrstp, hrstps⟩ := List.forall_mem_cons.1 hrst
    have hu : u.state ≠ .idle :=
      hbusy 0 u (Nat.succ_pos _) (by rw [List.take_succ_cons, runCycles_cons_of_next hfirst]; rfl)
    obtain ⟨houtcome, hid⟩ := ih hrstps hrest fun k v hk hv =>
      hbusy (k + 1) v (Nat.succ_lt_succ hk) (by rw [List.take_succ_cons, runCycles_cons_of_next hfirst, hv])
    obtain ⟨houtcomeFirst, hidFirst⟩ := cycleWith_busy_keeps hrstp hfirst hu
    exact ⟨houtcome.trans houtcomeFirst, hid.trans hidFirst⟩

theorem idO_congr {s t : State} (h : t.id = s.id) : idO t = idO s := by
  rw [idO, h, ← idO]

/-- Settles O22: the run keeps the registers, and each of the three outputs reads only those. -/
theorem outputsHoldWhileThePollRuns : Obligations.OutputsHoldWhileThePollRuns := by
  intro ps s t hrst _ h hbusy
  obtain ⟨houtcome, hid⟩ := runCycles_busy_keeps hrst h fun k u hk => hbusy (k + 1) u hk
  exact ⟨by rw [outcomeO_eq, outcomeO_eq, houtcome], idO_congr hid, fun k => by rw [hid]⟩

end Sys2Proof.Machine

namespace Sys2Proof.Machine

/-! The host's reads of single bytes: by index (R105) and by copy into a buffer (R108). -/

/-- Settles O39: the index port holds `k` unchanged, as `k` fits its eight bits, and the byte read is bounded at 5. -/
theorem readIdByteGivesOneByteOrZero : Obligations.ReadIdByteGivesOneByteOrZero := by
  intro s k hk
  have hport : (BitVec.ofNat 8 k).toNat = k := idx_toNat (decide_eq_true hk)
  refine ⟨idByteO { s with ports := { s.ports with idIdx := BitVec.ofNat 8 k } }, rfl, fun h => ?_, fun h => ?_⟩
  · rw [idByteO, hport, identByte_of_lt s.id h]
  · rw [idByteO, hport, identByte_of_ge s.id h]

/-- The copy's first part is as long as the number of bytes it writes. -/
theorem length_identifierCopy_written (id : Ident) (maxLen : Nat) :
    (id.toList.take (min maxLen Config.L)).length = min maxLen 5 := by
  simp [Config.L]

/-- Settles O59: a position before the end of the written part reads the identifier, a later one the caller's buffer
at the same position. -/
theorem identifierCopyWritesAtMostFiveBytes : Obligations.IdentifierCopyWritesAtMostFiveBytes := by
  intro id buffer maxLen k
  have hlen := length_identifierCopy_written id maxLen
  unfold identifierCopy
  split
  case isTrue hk =>
    rw [List.getElem?_append_left (hk.trans_eq hlen.symm), List.getElem?_take_of_lt hk]
    simp
  case isFalse hk =>
    have hge : min maxLen 5 ≤ k := Nat.le_of_not_lt hk
    rw [List.getElem?_append_right (hlen.le.trans hge), hlen, List.getElem?_drop]
    exact congrArg (buffer[·]?) (Nat.add_sub_cancel' hge)

end Sys2Proof.Machine

namespace Sys2Proof.Machine

/-! SUPPORT. The bit sampler of R121 to R129. First what a sampling cycle and a cycle outside sampling can do to the
control state, the timers and the samples; then what each branch of the four actions answers. -/

@[simp] theorem takeInputs_timedOut (s : State) (p : Inputs) : timedOut (s.takeInputs p) = timedOut s := rfl

/-- The four things a sampling cycle can do (R125, R127, R128), with what each does to the edge timer; the first two
end sampling. -/
inductive SamplingMove (tick : Bool) (s t : State) : Prop
  | timeout (late : timedOut s = true) (control : t.state = .checkCount) (edge : t.edgeMs = tickInc tick s.edgeMs)
      (cnt : t.cnt = s.cnt) (buf : t.buf = s.buf)
  | fill (inTime : timedOut s = false) (high : s.state = .waitHigh) (control : t.state = .checkCount)
      (edge : t.edgeMs = tickInc tick s.edgeMs) (last : s.cnt.toNat = 255) (cnt : t.cnt = Count.plus s.cnt 1)
      (buf : t.buf = s.buf.put s.cnt.toNat s.d2)
  | wait (control : t.state = s.state) (edge : t.edgeMs = tickInc tick s.edgeMs)
  | restart (goesOn : sampling t) (control : t.state ≠ s.state) (edge : t.edgeMs = 0#8)

theorem waitHighAction_move {s t : State} (hs : s.state = .waitHigh)
    (h : waitHighAction s (captureEdge s) = .next t) :
    t.winMs = tickInc s.ports.msTick s.winMs ∧ SamplingMove s.ports.msTick s t := by
  obtain ⟨late, rfl⟩ | ⟨-, -, rfl⟩ | ⟨inTime, -, last, rfl⟩ | ⟨-, -, -, rfl⟩ := waitHighAction_cases h
  · exact ⟨rfl, .timeout late rfl rfl rfl rfl⟩
  · exact ⟨rfl, .wait rfl rfl⟩
  · exact ⟨rfl, .fill inTime hs rfl rfl last rfl rfl⟩
  · exact ⟨rfl, .restart (.inr rfl) (by simp [hs]) rfl⟩

theorem waitLowAction_move {s t : State} (hs : s.state = .waitLow) (h : waitLowAction s (captureEdge s) = .next t) :
    t.winMs = tickInc s.ports.msTick s.winMs ∧ SamplingMove s.ports.msTick s t := by
  obtain ⟨late, rfl⟩ | ⟨-, -, rfl⟩ | ⟨-, -, rfl⟩ := waitLowAction_cases h
  · exact ⟨rfl, .timeout late rfl rfl rfl rfl⟩
  · exact ⟨rfl, .wait rfl rfl⟩
  · exact ⟨rfl, .restart (.inl rfl) (by simp [hs]) rfl⟩

/-- R123: every sampling cycle counts the tick in the window timer, whichever of the four things it does. -/
theorem stateAction_sampling {s t : State} (hs : sampling s) (h : stateAction s.state s (captureEdge s) = .next t) :
    t.winMs = tickInc s.ports.msTick s.winMs ∧ SamplingMove s.ports.msTick s t := by
  obtain hs | hs := hs <;> rw [hs] at h
  · exact waitHighAction_move hs h
  · exact waitLowAction_move hs h

/-- The inputs taken into the cycle change no register that the move reads. -/
theorem SamplingMove.of_takeInputs {tick : Bool} {p : Inputs} {s t : State}
    (h : SamplingMove tick (s.takeInputs p) t) : SamplingMove tick s t := by
  cases h with
  | timeout late control edge cnt buf => exact .timeout late control edge cnt buf
  | fill inTime high control edge last cnt buf => exact .fill inTime high control edge last cnt buf
  | wait control edge => exact .wait control edge
  | restart goesOn control edge => exact .restart goesOn control edge

/-- A non-reset cycle runs the selected action on the captured state. -/
theorem cycleWith_action {p : Inputs} {s t : State} (hrst : p.rst = false) (h : cycleWith p s = .next t) :
    stateAction s.state (s.takeInputs p) (captureEdge (s.takeInputs p)) = .next t := by
  obtain ⟨hreset, -⟩ | ⟨-, hact⟩ := cycleWith_cases h
  · simp [hrst] at hreset
  · exact hact

theorem cycleWith_sampling {p : Inputs} {s t : State} (hrst : p.rst = false) (hs : sampling s)
    (h : cycleWith p s = .next t) : t.winMs = tickInc p.msTick s.winMs ∧ SamplingMove p.msTick s t := by
  obtain ⟨hwin, hmove⟩ := stateAction_sampling (s := s.takeInputs p) hs (cycleWith_action hrst h)
  exact ⟨hwin, hmove.of_takeInputs⟩

/-- What a cycle outside sampling does to the timers of `new`: nothing, or it starts a poll with both at 0 (R123). -/
def KeepsTimersOrStarts (new t : State) : Prop :=
  (¬sampling t ∧ t.winMs = new.winMs ∧ t.edgeMs = new.edgeMs) ∨ (sampling t ∧ t.winMs = 0#8 ∧ t.edgeMs = 0#8)

/-- R123: only IDLE's poll start, of all actions outside sampling, writes the timers or begins sampling. -/
theorem stateAction_timers {old new t : State} (hs : ¬sampling old) (hnew : new.state = old.state)
    (h : stateAction old.state old new = .next t) : KeepsTimersOrStarts new t := by
  cases hn : old.state <;> rw [hn] at h hnew
  case idle =>
    obtain ⟨-, -, rfl⟩ | ⟨-, -, rfl⟩ | ⟨-, rfl⟩ := idleAction_cases h
    · exact .inl ⟨by simp [sampling], rfl, rfl⟩
    · exact .inr ⟨.inl rfl, rfl, rfl⟩
    · exact .inl ⟨by simp [sampling, hnew], rfl, rfl⟩
  case waitHigh => exact absurd (.inl hn) hs
  case waitLow => exact absurd (.inr hn) hs
  case checkCount =>
    obtain ⟨-, rfl⟩ | ⟨-, rfl⟩ := checkCountAction_cases h <;> exact .inl ⟨by simp [sampling], rfl, rfl⟩
  case hdrScan =>
    obtain ⟨-, rfl⟩ | ⟨-, -, ⟨-, -, rfl⟩ | ⟨-, -, rfl⟩ | ⟨-, rfl⟩⟩ := hdrScanAction_cases h <;>
      exact .inl ⟨by simp [sampling, hnew], rfl, rfl⟩
  case row =>
    obtain ⟨-, rfl⟩ | ⟨-, -, ⟨-, rfl⟩ | ⟨-, -, rfl⟩⟩ := rowAction_cases h
    · exact .inl ⟨by simp [sampling], rfl, rfl⟩
    · exact .inl ⟨by simp [sampling], rfl, rfl⟩
    · refine .inl ⟨?_, rfl, rfl⟩
      by_cases hlast : old.row = 9#4 <;> simp [sampling, hlast, hn]
  case final =>
    obtain ⟨-, rfl⟩ | ⟨-, -, ⟨-, rfl⟩ | ⟨-, -, rfl⟩ | ⟨-, -, rfl⟩⟩ := finalAction_cases h <;>
      exact .inl ⟨by simp [sampling], rfl, rfl⟩
  case unused7 =>
    obtain rfl := unused7Action_cases (old := old) h
    exact .inl ⟨by simp [sampling], rfl, rfl⟩

theorem cycleWith_timers {p : Inputs} {s t : State} (hrst : p.rst = false) (hs : ¬sampling s)
    (h : cycleWith p s = .next t) : KeepsTimersOrStarts s t :=
  stateAction_timers (old := s.takeInputs p) (new := captureEdge (s.takeInputs p)) hs rfl (cycleWith_action hrst h)

/-- R123: the edge timer is 0 after a move that restarts the wait, and counts the tick in every other. -/
theorem SamplingMove.edgeMs {tick : Bool} {s t : State} (h : SamplingMove tick s t) :
    (sampling t → t.state ≠ s.state → t.edgeMs = 0#8) ∧
      (t.state = s.state ∨ t.state = .checkCount → t.edgeMs = tickInc tick s.edgeMs) := by
  cases h with
  | timeout _ control edge | fill _ _ control edge =>
    exact ⟨fun ht => by simp [sampling, control] at ht, fun _ => edge⟩
  | wait control edge => exact ⟨fun _ hne => absurd control hne, fun _ => edge⟩
  | restart goesOn control edge =>
    refine ⟨fun _ _ => edge, fun hstop => ?_⟩
    obtain hsame | hcheck := hstop
    · exact absurd hsame control
    · simp [sampling, hcheck] at goesOn

/-- Settles O43: a sampling cycle makes one of the four moves; any other non-reset cycle keeps the timers or starts a
poll. -/
theorem timersCountTicksOnlyWhileSampling : Obligations.TimersCountTicksOnlyWhileSampling := by
  intro p s t hrst h
  refine ⟨fun hs => ?_, fun hs ht => ?_, fun hs ht => ?_⟩
  · obtain ⟨hwin, hmove⟩ := cycleWith_sampling hrst hs h
    obtain ⟨hrestart, hcount⟩ := hmove.edgeMs
    exact ⟨by rw [hwin, tickInc_toNat], hrestart, fun hstop => by rw [hcount hstop, tickInc_toNat]⟩
  · obtain ⟨-, hkeep⟩ | ⟨hstart, -⟩ := cycleWith_timers hrst hs h
    · exact hkeep
    · exact absurd hstart ht
  · obtain ⟨hout, -⟩ | ⟨-, hzero⟩ := cycleWith_timers hrst hs h
    · exact absurd ht hout
    · exact hzero

/-- Settles O44: of the four moves of a sampling cycle only the timeout and the fill end sampling. -/
theorem samplingEndsByTimeoutOrFullBuffer : Obligations.SamplingEndsByTimeoutOrFullBuffer := by
  intro p s t hrst hs h hend
  obtain ⟨-, hmove⟩ := cycleWith_sampling hrst hs h
  cases hmove with
  | timeout late control _ cnt buf => exact ⟨control, .inl ⟨late, cnt, buf⟩⟩
  | fill inTime high control _ last cnt buf =>
    have hcnt : t.cnt.toNat = 256 := by rw [cnt, plus_toNat _ _ (by omega), last]
    exact ⟨control, .inr ⟨inTime, high, last, hcnt, last ▸ buf⟩⟩
  | wait control _ => exact absurd (by rwa [sampling, control]) hend
  | restart goesOn _ _ => exact absurd goesOn hend

/-! The branches of the four actions. -/

/-- A state row in a non-reset cycle answers what its action does (R41). -/
theorem exec_stateRow_run (n : StateName) {s : State} (hrst : s.ports.rst = false) :
    exec n.instr s = stateAction n s (captureEdge s) := by
  rw [exec_stateRow, clockEdge_run _ _ hrst]

/-- R205: the commit of a failed poll raises `done_r` alone. -/
theorem commit_of_ne_success {o : OutcomeCode} (ho : o ≠ OutcomeCode.success) (new : State) :
    commit o new = { new with outcome := o, doneR := true, tagR := false, state := .idle } := by
  rw [commit, decide_eq_false ho]

/-- R125, R50: with the clock active and no timeout WAIT_HIGH appends, and the sample's index decides how it goes on. -/
theorem waitHighAction_append {old : State} (inTime : timedOut old = false) (hc2 : old.c2 = true)
    (hcnt : old.cnt.toNat < 256) (new : State) :
    waitHighAction old new =
      if old.cnt.toNat + 1 = 256 then
        .next { new with
          winMs := tickInc old.ports.msTick old.winMs, edgeMs := tickInc old.ports.msTick old.edgeMs
          buf := old.buf.put old.cnt.toNat old.d2, cnt := Count.plus old.cnt 1, state := .checkCount }
      else
        .next { new with
          winMs := tickInc old.ports.msTick old.winMs, edgeMs := 0#8
          buf := old.buf.put old.cnt.toNat old.d2, cnt := Count.plus old.cnt 1, state := .waitLow } := by
  simp [waitHighAction, inTime, hc2, Memory.bufWrite_of_lt _ hcnt]

/-- Settles O24, by the two tests of the action. -/
theorem idleChecksActivityAndStartsSampling : Obligations.IdleChecksActivityAndStartsSampling := by
  intro s hrst
  have hexec : exec .idle s = idleAction s (captureEdge s) := exec_stateRow_run .idle hrst
  rw [hexec]
  refine ⟨fun hstart => ?_, fun hstart hc2 => ?_, fun hstart hc2 => ?_⟩
  · simp [idleAction, hstart]
  · rw [← commit_of_ne_success (by decide)]
    simp [idleAction, hstart, hc2]
  · simp [idleAction, hstart, hc2]

/-- Settles O25: the timeout is tested before the level, and the index of the sample decides between WAIT_LOW and
CHECK_COUNT. -/
theorem waitHighTakesOneSample : Obligations.WaitHighTakesOneSample := by
  intro s hrst
  have hexec : exec .waitHigh s = waitHighAction s (captureEdge s) := exec_stateRow_run .waitHigh hrst
  rw [hexec]
  dsimp only
  rw [← timedOut_iff, Bool.not_eq_true]
  refine ⟨fun late => ?_, fun inTime hc2 => ?_, fun inTime hc2 hcnt => ?_, fun inTime hc2 hcnt => ?_⟩
  · simp [waitHighAction, late, tickInc]
  · simp [waitHighAction, inTime, hc2, tickInc]
  · rw [waitHighAction_append inTime hc2 (by omega), if_neg (by omega)]
    rfl
  · rw [waitHighAction_append inTime hc2 (by omega), if_pos (by omega), Count.plus, hcnt]
    rfl

/-- Settles O26: the timeout is tested before the level. -/
theorem waitLowWaitsForTheInactiveLevel : Obligations.WaitLowWaitsForTheInactiveLevel := by
  intro s hrst
  have hexec : exec .waitLow s = waitLowAction s (captureEdge s) := exec_stateRow_run .waitLow hrst
  rw [hexec]
  dsimp only
  rw [← timedOut_iff, Bool.not_eq_true]
  refine ⟨fun late => ?_, fun inTime hc2 => ?_, fun inTime hc2 => ?_⟩
  · simp [waitLowAction, late, tickInc]
  · simp [waitLowAction, inTime, hc2, tickInc]
  · simp [waitLowAction, inTime, hc2, tickInc]

/-- Settles O27, by the one test of the action. -/
theorem checkCountWantsSixtyFourSamples : Obligations.CheckCountWantsSixtyFourSamples := by
  intro s hrst
  have hexec : exec .checkCount s = checkCountAction s (captureEdge s) := exec_stateRow_run .checkCount hrst
  rw [hexec]
  refine ⟨fun hshort => ?_, fun henough => ?_⟩
  · rw [← commit_of_ne_success (by decide)]
    exact if_pos hshort
  · exact if_neg (Nat.not_lt.2 henough)

end Sys2Proof.Machine

namespace Sys2Proof.Machine

/-! SUPPORT. The header scan: the answer of HDR_SCAN in each of its four cases (R150), the parallel match of R151 in
terms of the number of consecutive set samples before an index, and the countdown as 9 less that number. -/

/-- R150: at the end of the samples the scan commits NO_FRAME. -/
theorem hdrScanAction_atEnd {old : State} (hend : old.cnt.toNat ≤ old.ptr.toNat) (new : State) :
    hdrScanAction old new = .next { new with outcome := 0#3, doneR := true, tagR := false, state := .idle } := by
  rw [hdrScanAction, if_pos hend, commit_of_ne_success (by decide)]

section
variable {old : State} (hmore : old.ptr.toNat < old.cnt.toNat) (hidx : old.ptr.toNat < 256)
include hmore hidx

/-- R150: before the end, the next sample and the countdown decide. -/
theorem hdrScanAction_sample (new : State) :
    hdrScanAction old new =
      if old.buf.get old.ptr.toNat = true ∧ old.hdr = 1#4 then
        .next { new with ptr := Count.plus old.ptr 1, hdr := 9#4, row := 0#4, colx := 0#4, state := .row }
      else if old.buf.get old.ptr.toNat = true then
        .next { new with ptr := Count.plus old.ptr 1, hdr := hdrDown old }
      else .next { new with ptr := Count.plus old.ptr 1, hdr := 9#4 } := by
  rw [hdrScanAction, if_neg (Nat.not_le.2 hmore), Memory.bufRead_of_lt _ hidx]

theorem hdrScanAction_clear (hs : old.buf.get old.ptr.toNat = false) (new : State) :
    hdrScanAction old new = .next { new with ptr := Count.plus old.ptr 1, hdr := 9#4 } := by
  simp [hdrScanAction_sample hmore hidx, hs]

theorem hdrScanAction_last (hs : old.buf.get old.ptr.toNat = true) (hhdr : old.hdr = 1#4) (new : State) :
    hdrScanAction old new =
      .next { new with ptr := Count.plus old.ptr 1, hdr := 9#4, row := 0#4, colx := 0#4, state := .row } := by
  rw [hdrScanAction_sample hmore hidx, if_pos ⟨hs, hhdr⟩]

theorem hdrScanAction_set (hs : old.buf.get old.ptr.toNat = true) (hhdr : 1 < old.hdr.toNat) (new : State) :
    hdrScanAction old new = .next { new with ptr := Count.plus old.ptr 1, hdr := hdrDown old } := by
  have hne : old.hdr ≠ 1#4 := fun heq => by simp [heq] at hhdr
  rw [hdrScanAction_sample hmore hidx, if_neg fun hlast => hne hlast.2, if_pos hs]

end

/-- R150: a countdown that is not 0 is lowered by one. -/
theorem hdrDown_of_pos {s : State} (h : 0 < s.hdr.toNat) : hdrDown s = BitVec.ofNat 4 (s.hdr.toNat - 1) :=
  if_neg fun hzero => by simp [hzero] at h

/-- Settles O28, one branch of the action for each clause. -/
theorem hdrScanCountsConsecutiveSetSamples : Obligations.HdrScanCountsConsecutiveSetSamples := by
  intro s hrst
  have hexec : exec .hdrScan s = hdrScanAction s (captureEdge s) := exec_stateRow_run .hdrScan hrst
  rw [hexec]
  refine ⟨fun hend => hdrScanAction_atEnd hend _, fun hmore hidx hs => hdrScanAction_clear hmore hidx hs _,
    fun hmore hidx hs hhdr => hdrScanAction_last hmore hidx hs hhdr _, fun hmore hidx hs hhdr => ?_⟩
  rw [hdrScanAction_set hmore hidx hs hhdr, hdrDown_of_pos (by omega)]
  rfl

/-! The parallel match. -/

/-- The number of consecutive set samples that end just before an index. -/
def setRun (f : Nat → Sample) : Nat → Nat
  | 0 => 0
  | n + 1 => if f n then setRun f n + 1 else 0

theorem setRun_succ_of_set {f : Nat → Sample} {n : Nat} (h : f n = true) : setRun f (n + 1) = setRun f n + 1 := if_pos h

theorem setRun_succ_of_clear {f : Nat → Sample} {n : Nat} (h : f n = false) : setRun f (n + 1) = 0 := by
  simp [setRun, h]

/-- The run before `n` has at least `k` samples exactly if the `k` samples before `n` exist and are set. -/
theorem le_setRun_iff (f : Nat → Sample) (k n : Nat) : k ≤ setRun f n ↔ k ≤ n ∧ ∀ j < k, f (n - k + j) = true := by
  induction n generalizing k with
  | zero => cases k <;> simp [setRun]
  | succ n ih =>
    cases k with
    | zero => simp
    | succ k =>
      rw [Nat.add_sub_add_right, Nat.forall_lt_succ_right, Nat.add_le_add_iff_right]
      cases hn : f n with
      | true =>
        rw [setRun_succ_of_set hn, Nat.add_le_add_iff_right, ih]
        refine ⟨fun ⟨hk, hrun⟩ => ⟨hk, hrun, by rwa [Nat.sub_add_cancel hk]⟩, fun ⟨hk, hrun, _⟩ => ⟨hk, hrun⟩⟩
      | false =>
        rw [setRun_succ_of_clear hn]
        refine ⟨fun h => by omega, fun ⟨hk, _, hlast⟩ => ?_⟩
        simp [Nat.sub_add_cancel hk, hn] at hlast

theorem length_samples (s : State) : s.samples.length = s.cnt.toNat := by
  simp [State.samples]

theorem sampleAt_samples (s : State) {i : Nat} (h : i < s.cnt.toNat) : sampleAt s.samples i = s.buf.get i := by
  simp [sampleAt, State.samples, h]

/-- R151: nine set samples end at `e` exactly if the run before `e` has at least nine. -/
theorem headerEndsAt_samples_iff {s : State} {e : Nat} (he : e ≤ s.cnt.toNat) :
    headerEndsAt s.samples e = true ↔ 9 ≤ setRun s.buf.get e := by
  rw [le_setRun_iff, headerEndsAt, Bool.and_eq_true, decide_eq_true_iff, List.all_eq_true]
  refine and_congr_right fun (h9 : 9 ≤ e) => forall_congr' fun j => ?_
  rw [List.mem_range]
  refine imp_congr_right fun (hj : j < 9) => ?_
  rw [sampleAt_samples s (show e - 9 + j < s.cnt.toNat by omega)]

/-- R151: what the least end of nine set samples is. -/
theorem headerEnd_samples_eq_some {s : State} {e : Nat} (h : headerEnd s.samples = some e) :
    e ≤ s.cnt.toNat ∧ 9 ≤ setRun s.buf.get e ∧ ∀ i < e, setRun s.buf.get i < 9 := by
  rw [headerEnd, List.find?_range_eq_some, length_samples, List.mem_range, Nat.lt_succ_iff] at h
  obtain ⟨hends, hle, hleast⟩ := h
  refine ⟨hle, (headerEndsAt_samples_iff hle).1 hends, fun i hi => ?_⟩
  have hnot := hleast i hi
  rwa [Bool.not_eq_true', ← Bool.not_eq_true, headerEndsAt_samples_iff (by omega), Nat.not_le] at hnot

theorem headerEnd_samples_eq_none {s : State} (h : headerEnd s.samples = none) :
    ∀ i ≤ s.cnt.toNat, setRun s.buf.get i < 9 := by
  intro i hi
  rw [headerEnd, List.find?_eq_none, length_samples] at h
  have hnot := h i (List.mem_range.2 (Nat.lt_succ_of_le hi))
  rwa [headerEndsAt_samples_iff hi, Nat.not_le] at hnot

/-! The scan. -/

/-- `u` is in the scan that began in `s`, after `i` samples with no header: the countdown is 9 less the set samples
that end at `i`, and nothing is committed. -/
structure Scanned (s u : State) (i : Nat) : Prop where
  control : u.state = .hdrScan
  ptr : u.ptr.toNat = i
  cnt : u.cnt = s.cnt
  buf : u.buf = s.buf
  countdown : u.hdr.toNat + setRun s.buf.get i = 9
  outcome : u.outcome = s.outcome
  id : u.id = s.id

/-- A non-reset cycle answers what the selected action does (R41). -/
theorem cycleWith_run {p : Inputs} (hrst : p.rst = false) (s : State) :
    cycleWith p s = stateAction s.state (s.takeInputs p) (captureEdge (s.takeInputs p)) :=
  clockEdge_run _ (s.takeInputs p) hrst

theorem cycleWith_hdrScan {p : Inputs} {s : State} (hrst : p.rst = false) (hs : s.state = .hdrScan) :
    cycleWith p s = hdrScanAction (s.takeInputs p) (captureEdge (s.takeInputs p)) := by
  rw [cycleWith_run hrst, hs, stateAction]

section
variable {s u : State} {i : Nat} {p : Inputs} (hscan : Scanned s u i) (hrst : p.rst = false)
include hscan hrst

/-- R150: a sample that completes no header is one more sample scanned. -/
theorem Scanned.next (hi : i < s.cnt.toNat) (hcnt : s.cnt.toNat ≤ 256) (hrun : setRun s.buf.get (i + 1) < 9) :
    ∃ t, cycleWith p u = .next t ∧ Scanned s t (i + 1) := by
  obtain ⟨control, rfl, cnt, buf, countdown, outcome, id⟩ := hscan
  rw [← cnt] at hi hcnt
  rw [cycleWith_hdrScan hrst control]
  have hidx : u.ptr.toNat < 256 := by omega
  have hptr : (Count.plus u.ptr 1).toNat = u.ptr.toNat + 1 := plus_toNat _ _ (by omega)
  cases hs : s.buf.get u.ptr.toNat with
  | false =>
    refine ⟨_, hdrScanAction_clear (old := u.takeInputs p) hi hidx (buf.symm ▸ hs) _, control, hptr,
      cnt, buf, ?_, outcome, id⟩
    rw [setRun_succ_of_clear hs]
    rfl
  | true =>
    rw [setRun_succ_of_set hs] at hrun
    have hhdr : 1 < u.hdr.toNat := by omega
    refine ⟨_, hdrScanAction_set (old := u.takeInputs p) hi hidx (buf.symm ▸ hs) hhdr _, control, hptr, cnt, buf, ?_,
      outcome, id⟩
    show (hdrDown (u.takeInputs p)).toNat + _ = 9
    rw [setRun_succ_of_set hs, hdrDown_toNat (u.takeInputs p) hhdr.le, takeInputs_hdr]
    omega

/-- R150: the sample that completes the header enters ROW. -/
theorem Scanned.found (hi : i < s.cnt.toNat) (hcnt : s.cnt.toNat ≤ 256) (hshort : setRun s.buf.get i < 9)
    (hrun : 9 ≤ setRun s.buf.get (i + 1)) :
    ∃ t, cycleWith p u = .next t ∧ t.state = .row ∧ t.ptr.toNat = i + 1 ∧ t.row = 0#4 ∧ t.colx = 0#4 ∧
      t.cnt = s.cnt ∧ t.buf = s.buf ∧ t.outcome = s.outcome ∧ t.id = s.id := by
  obtain ⟨control, rfl, cnt, buf, countdown, outcome, id⟩ := hscan
  rw [← cnt] at hi hcnt
  rw [cycleWith_hdrScan hrst control]
  have hidx : u.ptr.toNat < 256 := by omega
  cases hs : s.buf.get u.ptr.toNat with
  | false => simp [setRun_succ_of_clear hs] at hrun
  | true =>
    rw [setRun_succ_of_set hs] at hrun
    have hhdr : u.hdr = 1#4 := BitVec.eq_of_toNat_eq (by simp; omega)
    exact ⟨_, hdrScanAction_last (old := u.takeInputs p) hi hidx (buf.symm ▸ hs) hhdr _, rfl,
      plus_toNat u.ptr 1 (by omega), rfl, rfl, cnt, buf, outcome, id⟩

/-- R150: after the last sample the scan commits NO_FRAME. -/
theorem Scanned.finish (hi : i = s.cnt.toNat) :
    ∃ t, cycleWith p u = .next t ∧ t.state = .idle ∧ t.outcome = 0#3 ∧ t.doneR = true ∧ t.tagR = false ∧
      t.id = s.id := by
  obtain ⟨control, rfl, cnt, -, -, -, id⟩ := hscan
  rw [cycleWith_hdrScan hrst control]
  have hend : u.cnt.toNat ≤ u.ptr.toNat := by rw [cnt, hi]
  exact ⟨_, hdrScanAction_atEnd (old := u.takeInputs p) hend _, rfl, rfl, rfl, rfl, id⟩

end

theorem runCycles_concat_of_next {ps : List Inputs} {s u : State} (h : runCycles ps s = .next u) (p : Inputs) :
    runCycles (ps ++ [p]) s = cycleWith p u := by
  induction ps generalizing s with
  | nil =>
    cases h
    cases hlast : cycleWith p u <;> simp [runCycles, hlast]
  | cons q ps ih =>
    obtain ⟨v, hfirst, hrest⟩ := runCycles_cons_cases h
    rw [List.cons_append, runCycles_cons_of_next hfirst, ih hrest]

/-- R151: as long as no nine set samples have gone by, the scan goes on, one sample a cycle. -/
theorem runCycles_scanned {s : State} (hs : Scanned s s 0) (hcnt : s.cnt.toNat ≤ 256) (ps : List Inputs)
    (hrst : noReset ps) (hlen : ps.length ≤ s.cnt.toNat) (hrun : ∀ i ≤ ps.length, setRun s.buf.get i < 9) :
    ∃ u, runCycles ps s = .next u ∧ Scanned s u ps.length := by
  induction ps using List.reverseRecOn with
  | nil => exact ⟨s, rfl, hs⟩
  | append_singleton ps p ih =>
    rw [List.length_append, List.length_singleton] at hlen hrun ⊢
    obtain ⟨hrstps, hrstp⟩ := List.forall_mem_append.1 hrst
    obtain ⟨u, hu, hscan⟩ := ih hrstps (by omega) fun i hi => hrun i (by omega)
    rw [runCycles_concat_of_next hu]
    exact hscan.next (hrstp p (List.mem_singleton_self p)) hlen hcnt (hrun _ le_rfl)

/-- A run one cycle longer than a scan of `n` samples is that scan and a last cycle from where it stands. -/
theorem runCycles_succ_scanned {s : State} (hs : Scanned s s 0) (hcnt : s.cnt.toNat ≤ 256) {ps : List Inputs}
    (hrst : noReset ps) {n : Nat} (hlen : ps.length = n + 1) (hn : n ≤ s.cnt.toNat)
    (hrun : ∀ i ≤ n, setRun s.buf.get i < 9) :
    ∃ p u, p.rst = false ∧ Scanned s u n ∧ runCycles ps s = cycleWith p u := by
  obtain rfl | ⟨qs, p, rfl⟩ := List.eq_nil_or_concat' ps
  · simp at hlen
  · rw [List.length_append, List.length_singleton, Nat.add_right_cancel_iff] at hlen
    subst hlen
    obtain ⟨hrstqs, hrstp⟩ := List.forall_mem_append.1 hrst
    obtain ⟨u, hu, hscan⟩ := runCycles_scanned hs hcnt qs hrstqs hn hrun
    exact ⟨p, u, hrstp p (List.mem_singleton_self p), hscan, runCycles_concat_of_next hu p⟩

/-- Settles O52: up to the least end of nine set samples, or up to the end of the samples if there is none, the scan
goes on; the cycle there enters ROW, or commits. -/
theorem headerScanIsTheParallelMatch : Obligations.HeaderScanIsTheParallelMatch := by
  intro s ps hstate hptr hhdr hcnt hrst
  have hs : Scanned s s 0 := ⟨hstate, by simp [hptr], rfl, rfl, by simp [hhdr, setRun], rfl, rfl⟩
  refine ⟨fun e he => ?_, fun hnone => ?_⟩
  · obtain ⟨hle, hends, hleast⟩ := headerEnd_samples_eq_some he
    refine ⟨fun hlen => ?_, fun hlen => ?_⟩
    · obtain ⟨u, hu, hscan⟩ := runCycles_scanned hs hcnt ps hrst (by omega) fun i hi => hleast i (by omega)
      exact ⟨u, hu, hscan.control⟩
    · cases e with
      | zero => simp [setRun] at hends
      | succ n =>
        obtain ⟨p, u, hrstp, hscan, hrun⟩ :=
          runCycles_succ_scanned hs hcnt hrst hlen (by omega) fun i hi => hleast i (by omega)
        rw [hrun]
        exact hscan.found hrstp hle hcnt (hleast n n.lt_succ_self) hends
  · have hnever := headerEnd_samples_eq_none hnone
    refine ⟨fun hlen => ?_, fun hlen => ?_⟩
    · obtain ⟨u, hu, hscan⟩ := runCycles_scanned hs hcnt ps hrst hlen fun i hi => hnever i (by omega)
      exact ⟨u, hu, hscan.control⟩
    · obtain ⟨p, u, hrstp, hscan, hrun⟩ := runCycles_succ_scanned hs hcnt hrst hlen le_rfl hnever
      rw [hrun]
      exact hscan.finish hrstp rfl

end Sys2Proof.Machine

namespace Sys2Proof.Machine

/-! SUPPORT. The row decoder: the answer of ROW in each of its three cases (R160), fit before parity (R167). -/

/-- R160, R50: where the five samples at `ptr` exist, they are what ROW and FINAL read. -/
theorem readRow_ptr {s : State} (hidx : s.ptr.toNat + 4 < 256) : readRow s.buf s.ptr.toNat = some (rowOf s) :=
  readRow_of_lt s.buf hidx

/-- The test for the last data row, on the count itself and on its value (R160). -/
theorem row_eq_nine_iff (r : RowCount) : r = 9#4 ↔ r.toNat = 9 := BitVec.toNat_inj.symm

/-- R160, R167: a row that does not fit commits NO_FRAME, whatever its samples are. -/
theorem rowAction_short {old : State} (hshort : ¬old.ptr.toNat + 5 ≤ old.cnt.toNat) (new : State) :
    rowAction old new = .next { new with outcome := 0#3, doneR := true, tagR := false, state := .idle } := by
  rw [rowAction, if_pos (Nat.not_le.1 hshort), commit_of_ne_success (by decide)]

section
variable {old : State} (hfits : old.ptr.toNat + 5 ≤ old.cnt.toNat) (hidx : old.ptr.toNat + 4 < 256)
include hfits hidx

/-- R160, R162: a row that fits and has odd parity commits ROW_PARITY; `nib` and `colx` stay. -/
theorem rowAction_odd (hodd : (rowOf old).parity = true) (new : State) :
    rowAction old new = .next { new with outcome := 2#3, doneR := true, tagR := false, state := .idle } := by
  simp only [rowAction, if_neg (Nat.not_lt.2 hfits), readRow_ptr hidx, if_pos hodd]
  rw [commit_of_ne_success (by decide)]

/-- R160, R163: a row that fits and has even parity is taken: its value goes into the accumulator at `9 - row`. -/
theorem rowAction_even (heven : (rowOf old).parity = false) (hrow : old.row.toNat ≤ 9) (new : State) :
    rowAction old new = .next { new with
      nib := nibWrite old.nib (Fin.ofNat 10 (9 - old.row.toNat)) (rowOf old).value
      colx := old.colx ^^^ (rowOf old).value, ptr := Count.plus old.ptr 5, row := rowNext old.row
      state := if old.row.toNat = 9 then .final else old.state } := by
  simp only [rowAction, if_neg (Nat.not_lt.2 hfits), readRow_ptr hidx, if_neg (Bool.eq_false_iff.1 heven),
    nibIndex_of_le _ hrow, row_eq_nine_iff]

end

/-- Settles O29, one branch of the action for each clause. -/
theorem rowTakesFiveSamples : Obligations.RowTakesFiveSamples := by
  intro s hrst
  have hexec : exec .row s = rowAction s (captureEdge s) := exec_stateRow_run .row hrst
  rw [hexec]
  exact ⟨fun hshort => rowAction_short hshort _, fun hfits hidx hodd => rowAction_odd hfits hidx hodd _,
    fun hfits hidx heven hrow => rowAction_even hfits hidx heven hrow _⟩

end Sys2Proof.Machine

namespace Sys2Proof.Machine

/-! SUPPORT. The identifier bytes: `pairByte` is the append of its two nibbles, and the assembly and its inverse in
terms of it (R181, R189). -/

theorem pairByte_eq_append (hi lo : Nibble) : pairByte hi lo = hi ++ lo := by
  rw [BitVec.append_def, BitVec.shiftLeftZeroExtend_eq, BitVec.setWidth'_eq]
  rfl

@[simp] theorem lowNibble_pairByte (hi lo : Nibble) : lowNibble (pairByte hi lo) = lo := by
  rw [pairByte_eq_append]
  exact BitVec.extractLsb'_append_eq_right

@[simp] theorem highNibble_pairByte (hi lo : Nibble) : highNibble (pairByte hi lo) = hi := by
  rw [pairByte_eq_append]
  exact BitVec.extractLsb'_append_eq_left

@[simp] theorem pairByte_nibbles (b : Byte) : pairByte (highNibble b) (lowNibble b) = b := by
  rw [pairByte_eq_append]
  exact (BitVec.extractLsb'_append_extractLsb'_eq_extractLsb' rfl).trans BitVec.extractLsb'_eq_self

theorem assemble_get (nib : Accumulator) (k : Fin 5) :
    (assemble nib)[k] = pairByte nib[2 * k.val + 1] nib[2 * k.val] := by
  match k with
  | 0 | 1 | 2 | 3 | 4 => rfl

theorem assemble_eq_appends (nib : Accumulator) :
    assemble nib = #v[nib[1] ++ nib[0], nib[3] ++ nib[2], nib[5] ++ nib[4], nib[7] ++ nib[6], nib[9] ++ nib[8]] := by
  simp only [assemble, pairByte_eq_append]

theorem lowNibble_assemble (nib : Accumulator) (k : Fin 5) : lowNibble (assemble nib)[k] = nib[2 * k.val] := by
  rw [assemble_get, lowNibble_pairByte]

theorem highNibble_assemble (nib : Accumulator) (k : Fin 5) : highNibble (assemble nib)[k] = nib[2 * k.val + 1] := by
  rw [assemble_get, highNibble_pairByte]

theorem disassemble_low (id : Ident) (k : Fin 5) : (disassemble id)[2 * k.val] = lowNibble id[k] := by
  match k with
  | 0 | 1 | 2 | 3 | 4 => rfl

theorem disassemble_high (id : Ident) (k : Fin 5) : (disassemble id)[2 * k.val + 1] = highNibble id[k] := by
  match k with
  | 0 | 1 | 2 | 3 | 4 => rfl

/-- Two accumulators are equal if they have the same low and the same high nibble for each identifier byte. -/
theorem accumulator_ext {a b : Accumulator} (hlow : ∀ k : Fin 5, a[2 * k.val] = b[2 * k.val])
    (hhigh : ∀ k : Fin 5, a[2 * k.val + 1] = b[2 * k.val + 1]) : a = b := by
  refine Vector.ext fun i hi => ?_
  obtain ⟨k, rfl | rfl⟩ := i.even_or_odd'
  · exact hlow ⟨k, by omega⟩
  · exact hhigh ⟨k, by omega⟩

theorem disassemble_assemble (nib : Accumulator) : disassemble (assemble nib) = nib :=
  accumulator_ext (fun k => (disassemble_low _ k).trans (lowNibble_assemble nib k))
    fun k => (disassemble_high _ k).trans (highNibble_assemble nib k)

theorem assemble_disassemble (id : Ident) : assemble (disassemble id) = id := by
  refine Vector.ext fun k hk => ?_
  calc (assemble (disassemble id))[k]
      = pairByte (disassemble id)[2 * k + 1] (disassemble id)[2 * k] := assemble_get _ ⟨k, hk⟩
    _ = pairByte (highNibble id[k]) (lowNibble id[k]) := by
      congr 1
      · exact disassemble_high id ⟨k, hk⟩
      · exact disassemble_low id ⟨k, hk⟩
    _ = id[k] := pairByte_nibbles _

/-- Settles O50: a byte is the append of its two nibbles, so a slice of it gives each of them back. -/
theorem identifierAssemblyIsInvertible : Obligations.IdentifierAssemblyIsInvertible :=
  ⟨assemble_get, fun nib k => ⟨(lowNibble_assemble nib k).symm, (highNibble_assemble nib k).symm⟩,
    disassemble_assemble, assemble_disassemble⟩

end Sys2Proof.Machine

namespace Sys2Proof.Machine

/-! SUPPORT. The frame validator: the answer of FINAL in each of its four cases (R180), in the order of R185, and the
column XOR over all data rows (R183). -/

/-- R180, R187: a trailing row that does not fit commits NO_FRAME, whatever its samples are. -/
theorem finalAction_short {old : State} (hshort : ¬old.ptr.toNat + 5 ≤ old.cnt.toNat) (new : State) :
    finalAction old new = .next { new with outcome := 0#3, doneR := true, tagR := false, state := .idle } := by
  rw [finalAction, if_pos (Nat.not_le.1 hshort), commit_of_ne_success (by decide)]

section
variable {old : State} (hfits : old.ptr.toNat + 5 ≤ old.cnt.toNat) (hidx : old.ptr.toNat + 4 < 256)
include hfits hidx

/-- R180, R182: a set stop bit commits STOP_BIT, whatever the columns are. -/
theorem finalAction_stop (hstop : (rowOf old).s4 = true) (new : State) :
    finalAction old new = .next { new with outcome := 4#3, doneR := true, tagR := false, state := .idle } := by
  simp only [finalAction, if_neg (Nat.not_lt.2 hfits), readRow_ptr hidx, if_pos hstop]
  rw [commit_of_ne_success (by decide)]

variable (hclear : (rowOf old).s4 = false)
include hclear

/-- R180, R183: after a clear stop bit a nonzero column XOR commits COL_PARITY. -/
theorem finalAction_odd (hodd : old.colx ^^^ (rowOf old).value ≠ 0#4) (new : State) :
    finalAction old new = .next { new with outcome := 3#3, doneR := true, tagR := false, state := .idle } := by
  simp only [finalAction, if_neg (Nat.not_lt.2 hfits), readRow_ptr hidx, if_neg (Bool.eq_false_iff.1 hclear),
    if_pos hodd]
  rw [commit_of_ne_success (by decide)]

/-- R180, R184: a frame that passes every check commits SUCCESS with all five bytes. -/
theorem finalAction_success (heven : old.colx ^^^ (rowOf old).value = 0#4) (new : State) :
    finalAction old new = .next { new with
      outcome := 5#3, doneR := true, tagR := true, state := .idle, id := assemble old.nib } := by
  simp only [finalAction, if_neg (Nat.not_lt.2 hfits), readRow_ptr hidx, if_neg (Bool.eq_false_iff.1 hclear),
    if_neg (not_not.2 heven)]
  rfl

end

theorem exec_final_run {s : State} (hrst : s.ports.rst = false) : exec .final s = finalAction s (captureEdge s) :=
  exec_stateRow_run .final hrst

/-- Settles O31, one branch of the action for each clause. -/
theorem finalChecksStopBitThenColumns : Obligations.FinalChecksStopBitThenColumns := by
  intro s hrst
  rw [exec_final_run hrst, ← assemble_eq_appends]
  exact ⟨fun hshort => finalAction_short hshort _, fun hfits hidx hstop => finalAction_stop hfits hidx hstop _,
    fun hfits hidx hclear hodd => finalAction_odd hfits hidx hclear hodd _,
    fun hfits hidx hclear heven => finalAction_success hfits hidx hclear heven _⟩

/-- R166: after ten rows the running XOR is that of the whole accumulator. -/
theorem nibXor_ten (nib : Accumulator) :
    nibXor nib 10 = nib[0] ^^^ nib[1] ^^^ nib[2] ^^^ nib[3] ^^^ nib[4] ^^^ nib[5] ^^^ nib[6] ^^^ nib[7] ^^^ nib[8] ^^^
      nib[9] := by
  have hrows : nibXor nib 10 = 0#4 ^^^ nib[9] ^^^ nib[8] ^^^ nib[7] ^^^ nib[6] ^^^ nib[5] ^^^ nib[4] ^^^ nib[3] ^^^
      nib[2] ^^^ nib[1] ^^^ nib[0] := rfl
  rw [hrows, BitVec.zero_xor]
  ac_rfl

/-- R44 item 4, R183: in FINAL the column check is over the trailing value and all ten nibbles. -/
theorem Legal.final_columns {s : State} (hs : Legal s) (hfinal : s.state = .final) (v : Nibble) :
    s.colx ^^^ v = v ^^^ s.nib[0] ^^^ s.nib[1] ^^^ s.nib[2] ^^^ s.nib[3] ^^^ s.nib[4] ^^^ s.nib[5] ^^^ s.nib[6] ^^^
      s.nib[7] ^^^ s.nib[8] ^^^ s.nib[9] := by
  rw [hs.colxIsXor (.inr hfinal), hs.rowInFinal hfinal, nibXor_ten, BitVec.xor_comm]
  simp only [BitVec.xor_assoc]

/-- Settles O51: by the invariant on `colx`, the XOR of the eleven rows is the one that FINAL tests. -/
theorem columnParityCoversAllElevenRows : Obligations.ColumnParityCoversAllElevenRows := by
  intro s hlegal hfinal hrst hfits hclear
  have hidx : s.ptr.toNat + 4 < 256 := by
    have hcnt : s.cnt.toNat ≤ 256 := hlegal.cntBound
    omega
  rw [exec_final_run hrst, ← hlegal.final_columns hfinal]
  by_cases heven : s.colx ^^^ (rowOf s).value = 0#4
  · exact ⟨_, finalAction_success hfits hidx hclear heven _, fun _ => ⟨rfl, rfl⟩, fun hodd => absurd heven hodd⟩
  · exact ⟨_, finalAction_odd hfits hidx hclear heven _, fun h => absurd h heven, fun _ => ⟨rfl, rfl⟩⟩

end Sys2Proof.Machine

namespace Sys2Proof.Machine

/-! SUPPORT. The identifier register: the only two ways a step changes it (R184, R230). -/

theorem fetch_of_empty {s : State} (h : s.script = []) :
    (fetch s).2 = s.takeInputs (Config.freeInputs s.draw) := by
  rw [fetch, h]

theorem fetch_of_drive {s : State} {p : Inputs} {rest : List HostEvent} (h : s.script = .drive p :: rest) :
    (fetch s).2 = ({ s with script := rest } : State).takeInputs p := by
  rw [fetch, h]

/-- A step is a cycle with the inputs that the fetch puts on the ports, or an observation. -/
theorem step_cycle_or_observation {s t : State} (h : step s = .next t) :
    (∃ p rest, (fetch s).2 = ({ s with script := rest } : State).takeInputs p ∧
      cycleWith p { s with script := rest } = .next t) ∨
    (∃ o rest, exec (Observation.instr o) { s with script := rest } = .next t) := by
  obtain ⟨hscript, hcycle⟩ | ⟨p, rest, hscript, hcycle⟩ | ⟨o, rest, -, hobs⟩ := step_cases h
  · exact .inl ⟨_, s.script, fetch_of_empty hscript, hcycle⟩
  · exact .inl ⟨p, rest, fetch_of_drive hscript, hcycle⟩
  · exact .inr ⟨o, rest, hobs⟩

/-- R207: SUCCESS has its cause in FINAL alone. -/
theorem final_of_pollOutcome_success {s : State} (h : pollOutcome s = some OutcomeCode.success) :
    s.state = .final := by
  cases hs : s.state with
  | final => rfl
  | row =>
    simp only [pollOutcome, hs] at h
    split_ifs at h <;> cases h
  | idle | waitHigh | waitLow | checkCount | hdrScan | unused7 => simp [pollOutcome, hs] at h

/-- R184: a cycle that changes the identifier is a reset edge or FINAL's commit of SUCCESS. -/
theorem cycleWith_id_changed {p : Inputs} {s t : State} (h : cycleWith p s = .next t) (hid : t.id ≠ s.id) :
    (p.rst = true ∧ t = resetEdge (s.takeInputs p)) ∨
    (s.state = .final ∧
      t = commitPoll OutcomeCode.success (s.takeInputs p) (captureEdge (s.takeInputs p))) := by
  obtain hreset | ⟨hrst, -⟩ := cycleWith_cases h
  · exact .inl hreset
  obtain ⟨o, hcause, rfl⟩ | ⟨-, hkeep⟩ := cycleWith_outputs hrst h
  · by_cases ho : o = OutcomeCode.success
    · subst ho
      have hfinal : (s.takeInputs p).state = .final := final_of_pollOutcome_success hcause
      exact .inr ⟨hfinal, rfl⟩
    · rw [commitPoll_of_ne_success ho] at hid
      exact absurd rfl hid
  · exact absurd hkeep.id hid

/-- R230: the reset column has five zero bytes. -/
theorem reset_id_zero (k : Fin 5) : State.reset.id[k] = 0#8 := by
  revert k
  decide

/-- Settles O21: an observation writes no register, and a cycle that changes the identifier is one of the two. -/
theorem identifierChangesOnlyWithSuccess : Obligations.IdentifierChangesOnlyWithSuccess := by
  intro s t h hid
  obtain ⟨p, rest, hfetch, hcycle⟩ | ⟨o, rest, hobs⟩ := step_cycle_or_observation h
  · obtain ⟨hrst, rfl⟩ | ⟨hfinal, rfl⟩ := cycleWith_id_changed hcycle hid
    · exact .inl ⟨by rw [hfetch]; exact hrst, hrst, rfl, rfl, rfl, reset_id_zero⟩
    · exact .inr ⟨hfinal, rfl, rfl, rfl, rfl, rfl⟩
  · obtain ⟨k, v, rfl⟩ := exec_observation_cases hobs
    exact absurd rfl hid

end Sys2Proof.Machine

namespace Sys2Proof.Machine

/-! SUPPORT. A cycle with a cause answers a state (R205): with `cnt` at most 256 (R44) every sample it reads exists. -/

section
variable {old : State} {o : OutcomeCode} (hcause : pollOutcome old = some o)
include hcause

/-- R150: HDR_SCAN has a cause only at the end of the samples. -/
theorem end_le_ptr_of_cause (hs : old.state = .hdrScan) : old.cnt.toNat ≤ old.ptr.toNat := by
  by_contra hmore
  simp [pollOutcome, hs, hmore] at hcause

/-- R162, R167: a row that fits has a cause only by its parity. -/
theorem odd_of_cause_of_fits (hs : old.state = .row) (hfits : old.ptr.toNat + 5 ≤ old.cnt.toNat) :
    (rowOf old).parity = true := by
  by_contra heven
  simp [pollOutcome, hs, Nat.not_lt.2 hfits, heven] at hcause

/-- R205: the action that `state` selects takes the branch of its cause, so it is no fault. -/
theorem stateAction_answers_of_cause (hcnt : old.cnt.toNat ≤ 256) (new : State) :
    ∃ t, stateAction old.state old new = .next t := by
  have hidx (hfits : old.ptr.toNat + 5 ≤ old.cnt.toNat) : old.ptr.toNat + 4 < 256 := by omega
  cases hs : old.state with
  | idle =>
    rw [stateAction, idleAction]
    split_ifs <;> exact ⟨_, rfl⟩
  | checkCount =>
    rw [stateAction, checkCountAction]
    split_ifs <;> exact ⟨_, rfl⟩
  | hdrScan => exact ⟨_, hdrScanAction_atEnd (end_le_ptr_of_cause hcause hs) new⟩
  | row =>
    by_cases hfits : old.ptr.toNat + 5 ≤ old.cnt.toNat
    · exact ⟨_, rowAction_odd hfits (hidx hfits) (odd_of_cause_of_fits hcause hs hfits) new⟩
    · exact ⟨_, rowAction_short hfits new⟩
  | final =>
    by_cases hfits : old.ptr.toNat + 5 ≤ old.cnt.toNat
    · cases hstop : (rowOf old).s4 with
      | true => exact ⟨_, finalAction_stop hfits (hidx hfits) hstop new⟩
      | false =>
        by_cases heven : old.colx ^^^ (rowOf old).value = 0#4
        · exact ⟨_, finalAction_success hfits (hidx hfits) hstop heven new⟩
        · exact ⟨_, finalAction_odd hfits (hidx hfits) hstop heven new⟩
    · exact ⟨_, finalAction_short hfits new⟩
  | waitHigh | waitLow | unused7 => simp [pollOutcome, hs] at hcause

end

/-- R205: a non-reset cycle with a cause commits it. -/
theorem cycleWith_commits_cause {p : Inputs} {s : State} {o : OutcomeCode} (hrst : p.rst = false)
    (hcnt : s.cnt.toNat ≤ 256) (hcause : pollOutcome (s.takeInputs p) = some o) :
    cycleWith p s = .next (commitPoll o (s.takeInputs p) (captureEdge (s.takeInputs p))) := by
  obtain ⟨t, hact⟩ := stateAction_answers_of_cause hcause hcnt (captureEdge (s.takeInputs p))
  have hnext : cycleWith p s = .next t := (cycleWith_run hrst s).trans hact
  obtain ⟨o', hcause', rfl⟩ | ⟨hnone, -⟩ := cycleWith_outputs hrst hnext
  · obtain rfl : o = o' := Option.some.inj (hcause.symm.trans hcause')
    exact hnext
  · simp [hcause] at hnone

/-- Settles O19: the cycle commits its cause, and the commit writes exactly the registers that R205 names. -/
theorem commitEndsThePollAndChangesNothingElse : Obligations.CommitEndsThePollAndChangesNothingElse := by
  intro p s o hrst hcnt hcause
  rw [cycleWith_commits_cause hrst hcnt hcause]
  rfl

end Sys2Proof.Machine

namespace Sys2Proof.Machine

/-! SUPPORT. Reset: a reset edge leaves the reset column of R23 (R230), and the synchronizers it presets hide the lines
for two cycles (R240). -/

theorem reset_nib_zero (j : Fin 10) : State.reset.nib[j] = 0#4 := by
  revert j
  decide

/-- R230: the reset edge writes the reset column and leaves the buffer. -/
theorem atResetColumn_resetEdge (s : State) : AtResetColumn s (resetEdge s) where
  control := rfl
  synchronizer := ⟨rfl, rfl, rfl, rfl⟩
  counts := ⟨rfl, rfl, rfl, rfl, rfl⟩
  timers := ⟨rfl, rfl⟩
  nibbles := reset_nib_zero
  bytes := reset_id_zero
  lastOutcome := rfl
  pulses := ⟨rfl, rfl⟩
  buffer := rfl
  history := rfl
  own := ⟨rfl, rfl, rfl, rfl⟩

/-- The reset column speaks of what the lines and the memory were before, and a drive of the host's inputs leaves those
alone. -/
theorem AtResetColumn.of_drive {rst start : Bool} {idx : Nat} {s t : State}
    (h : AtResetColumn (s.drive rst start idx) t) : AtResetColumn s t := by
  obtain ⟨control, synchronizer, counts, timers, nibbles, bytes, lastOutcome, pulses, buffer, history, own⟩ := h
  exact ⟨control, synchronizer, counts, timers, nibbles, bytes, lastOutcome, pulses, buffer, history, own⟩

/-- R230: after a reset edge no read port shows an identifier byte other than zero. -/
theorem identByte_resetEdge (s : State) (k : Nat) : identByte (resetEdge s).id k = 0#8 := by
  by_cases hk : k < 5
  · rw [identByte_of_lt _ hk]
    exact (atResetColumn_resetEdge s).bytes ⟨k, hk⟩
  · exact identByte_of_ge _ (Nat.le_of_not_lt hk)

theorem idO_resetEdge (s : State) : idO (resetEdge s) = 0#40 := by
  rw [idO_congr (resetEdge_id s)]
  decide

/-- Settles O1: each of the three is a reset edge, whatever action it carries; the outputs read registers only. -/
theorem resetTakesTheResetColumn : Obligations.ResetTakesTheResetColumn := by
  refine ⟨fun start idle idx s => ?_, fun n s hrst => ?_, fun s p hrst => ⟨⟨rfl, rfl, rfl, rfl, rfl⟩, ?_⟩⟩
  · exact ⟨_, clockEdge_rst (stateAction s.state) (s.drive true start idx) rfl, (atResetColumn_resetEdge _).of_drive⟩
  · rw [exec_stateRow]
    exact ⟨_, clockEdge_rst _ s hrst, atResetColumn_resetEdge s⟩
  · exact ⟨_, clockEdge_rst _ (s.takeInputs p) hrst, atResetColumn_resetEdge _, rfl, rfl, rfl, rfl, idO_resetEdge _,
      identByte_resetEdge _⟩

/-- R121 in an IDLE cycle that sees an active clock: the block stays in IDLE, the synchronizer moves on, and a start
request commits NO_FRAME. -/
theorem cycleWith_idle_active {p : Inputs} {s : State} (hrst : p.rst = false) (hs : s.state = .idle)
    (hc2 : s.c2 = true) :
    ∃ t, cycleWith p s = .next t ∧ t.state = .idle ∧ t.c1 = p.rfidClk.capture (Config.freeClkCapture s.draw) ∧
      t.c2 = (s.takeInputs p).c1 ∧ t.lines = s.lines.push p ∧
      (p.start = true → t.outcome = 0#3 ∧ t.doneR = true) := by
  rw [cycleWith_run hrst, hs, stateAction, idleAction, takeInputs_ports, takeInputs_c2]
  cases hstart : p.start with
  | true =>
    rw [if_pos rfl, if_pos hc2]
    exact ⟨_, rfl, rfl, rfl, rfl, rfl, fun _ => ⟨rfl, rfl⟩⟩
  | false => exact ⟨_, rfl, hs, rfl, rfl, rfl, nofun⟩

/-- R230, log 5: the lines were not captured at a reset edge, so no later inputs can spoil what `c1` holds after it. -/
theorem AtResetColumn.takeInputs_c1 {r s : State} (h : AtResetColumn r s) (p : Inputs) :
    (s.takeInputs p).c1 = true := by
  rw [takeInputs_of_reset s p (by rw [h.history])]
  exact h.synchronizer.1

/-- Settles O4: the first cycle moves the preset `c1` into `c2`, so both cycles see an active clock in IDLE; `c2` after
the second one is what `c1` captured in the first. -/
theorem pollWithinTwoCyclesOfResetIsRejected : Obligations.PollWithinTwoCyclesOfResetIsRejected := by
  intro r s p q hreset hrstp hrstq
  obtain ⟨t, ht, htIdle, htc1, htc2, htLines, htPoll⟩ :=
    cycleWith_idle_active hrstp hreset.control hreset.synchronizer.2.1
  rw [hreset.takeInputs_c1 p] at htc2
  obtain ⟨u, hu, huIdle, -, huc2, -, huPoll⟩ := cycleWith_idle_active hrstq htIdle htc2
  have hrun : runCycles [p, q] s = .next u := by
    rw [runCycles_cons_of_next ht, runCycles_cons_of_next hu, runCycles]
  rw [ht, hrun]
  refine ⟨fun hstart => ⟨t, rfl, htIdle, htPoll hstart⟩, fun hstart => ⟨u, rfl, huIdle, huPoll hstart⟩, ?_, ?_⟩
  · rintro _ ⟨⟩
    exact htc2
  · rintro _ ⟨⟩ hkept
    rw [takeInputs_c1, htLines, hkept, Bool.and_false, if_neg Bool.false_ne_true, htc1] at huc2
    exact ⟨fun hhigh => by rw [huc2, hhigh, capture_high], fun hlow => by rw [huc2, hlow, capture_low]⟩

end Sys2Proof.Machine

namespace Sys2Proof.Machine

/-! SUPPORT. A poll from CHECK_COUNT to its commit (R250, R251), built backwards from the commit: each state of the
poll commits what R251 says of the samples that are left, a number of cycles after the state that follows it does. -/

/-- Whatever the inputs, short of reset: `s` commits nothing before the `n`-th cycle, and the outcome and identifier
`d` in it. -/
def CommitsAfter (s : State) (n : Nat) (d : OutcomeCode × Option Ident) : Prop :=
  ∀ ps, noReset ps →
    (ps.length < n → ∃ t, runCycles ps s = .next t ∧ t.state ≠ .idle ∧ t.outcome = s.outcome ∧ t.id = s.id) ∧
    (ps.length = n → ∃ t, runCycles ps s = .next t ∧ t.state = .idle ∧ t.doneR = true ∧
      t.outcome = d.1 ∧ t.id = d.2.getD s.id ∧ t.tagR = decide (d.1 = OutcomeCode.success))

/-- One cycle that commits nothing puts the commit one cycle off. -/
theorem CommitsAfter.of_next {s : State} {n : Nat} {d : OutcomeCode × Option Ident} (hbusy : s.state ≠ .idle)
    (h : ∀ p : Inputs, p.rst = false → ∃ u, cycleWith p s = .next u ∧ u.state ≠ .idle ∧ CommitsAfter u n d) :
    CommitsAfter s (n + 1) d := by
  intro ps hrst
  cases ps with
  | nil => exact ⟨fun _ => ⟨s, rfl, hbusy, rfl, rfl⟩, nofun⟩
  | cons p ps =>
    obtain ⟨hrstp, hrstps⟩ := List.forall_mem_cons.1 hrst
    obtain ⟨u, hu, hubusy, hcommits⟩ := h p hrstp
    obtain ⟨houtcome, hid⟩ := cycleWith_busy_keeps hrstp hu hubusy
    rw [runCycles_cons_of_next hu, List.length_cons, Nat.add_lt_add_iff_right, Nat.add_right_cancel_iff, ← houtcome,
      ← hid]
    exact hcommits ps hrstps

/-- The cause of a poll's commit is in the registers: out of IDLE no input has a say in it. -/
theorem pollOutcome_takeInputs {s : State} (hbusy : s.state ≠ .idle) (p : Inputs) :
    pollOutcome (s.takeInputs p) = pollOutcome s := by
  cases hs : s.state with
  | idle => exact absurd hs hbusy
  | waitHigh | waitLow | checkCount | hdrScan | row | final | unused7 =>
    simp only [pollOutcome, takeInputs_state, hs] <;> rfl

/-- R251: what a commit of `o` leaves in the identifier register, if anything. -/
def committedIdent (o : OutcomeCode) (nib : Accumulator) : Option Ident :=
  if o = OutcomeCode.success then some (assemble nib) else none

theorem committedIdent_of_ne_success {o : OutcomeCode} (ho : o ≠ OutcomeCode.success) (nib : Accumulator) :
    committedIdent o nib = none := if_neg ho

theorem commitPoll_id (o : OutcomeCode) (old new : State) :
    (commitPoll o old new).id = (committedIdent o old.nib).getD new.id := by
  rw [commitPoll, commit_id, committedIdent]
  split_ifs <;> rfl

/-- R205: a state with a cause commits it in the next cycle. -/
theorem CommitsAfter.of_cause {s : State} {o : OutcomeCode} (hbusy : s.state ≠ .idle) (hcnt : s.cnt.toNat ≤ 256)
    (hcause : pollOutcome s = some o) : CommitsAfter s 1 (o, committedIdent o s.nib) := by
  intro ps hrst
  match ps with
  | [] => exact ⟨fun _ => ⟨s, rfl, hbusy, rfl, rfl⟩, nofun⟩
  | [p] =>
    have hrstp : p.rst = false := hrst p (List.mem_singleton_self p)
    have hnext := cycleWith_commits_cause hrstp hcnt ((pollOutcome_takeInputs hbusy p).trans hcause)
    rw [runCycles_cons_of_next hnext]
    exact ⟨fun h => absurd h (lt_irrefl 1), fun _ => ⟨_, rfl, rfl, rfl, rfl, commitPoll_id _ _ _, rfl⟩⟩
  | _ :: _ :: _ => exact ⟨fun h => by simp at h, fun h => by simp at h⟩

/-- A failed poll commits no identifier. -/
theorem CommitsAfter.of_failure {s : State} {o : OutcomeCode} (hbusy : s.state ≠ .idle) (hcnt : s.cnt.toNat ≤ 256)
    (hcause : pollOutcome s = some o) (ho : o ≠ OutcomeCode.success) : CommitsAfter s 1 (o, none) :=
  committedIdent_of_ne_success ho s.nib ▸ CommitsAfter.of_cause hbusy hcnt hcause

/-! The rows. -/

/-- R51: the row that `decode` takes from the samples is the one at `ptr` in the buffer. -/
theorem rowAt_samples {s : State} (hfits : s.ptr.toNat + 5 ≤ s.cnt.toNat) :
    rowAt s.samples s.ptr.toNat = rowOf s := by
  have hat (j : Nat) (hj : j < 5) : sampleAt s.samples (s.ptr.toNat + j) = s.buf.get (s.ptr.toNat + j) :=
    sampleAt_samples s (by omega)
  rw [rowAt, rowOf, hat 1 (by decide), hat 2 (by decide), hat 3 (by decide), hat 4 (by decide)]
  exact congrArg (RowSamples.mk · _ _ _ _) (hat 0 (by decide))

theorem samples_congr {s t : State} (hcnt : t.cnt = s.cnt) (hbuf : t.buf = s.buf) : t.samples = s.samples := by
  rw [State.samples, hcnt, hbuf, ← State.samples]

/-- `s` is in the frame with `left` data rows to come, and has taken the others as `decode` has: their values stand in
the upper entries of the accumulator (R54). -/
structure RowsLeft (left : Nat) (nib : Accumulator) (s : State) : Prop where
  control : s.state = if left = 0 then .final else .row
  row : s.row.toNat + left = 10
  cnt : s.cnt.toNat ≤ 256
  nibbles : ∀ j : Fin 10, left ≤ j.val → s.nib[j] = nib[j]

theorem RowsLeft.busy {left : Nat} {nib : Accumulator} {s : State} (h : RowsLeft left nib s) : s.state ≠ .idle := by
  rw [h.control]
  split_ifs <;> decide

/-- R251's last four lines are the causes of FINAL. -/
theorem decodeTrailing_eq_cause {s : State} (hs : s.state = .final) :
    ∃ o, pollOutcome s = some o ∧
      decodeTrailing s.samples s.ptr.toNat s.nib s.colx = ⟨o, committedIdent o s.nib, 1⟩ := by
  rw [decodeTrailing, length_samples]
  simp only [pollOutcome, hs]
  by_cases hfits : s.ptr.toNat + 5 ≤ s.cnt.toNat
  · rw [if_neg (Nat.not_lt.2 hfits), if_neg (Nat.not_lt.2 hfits), rowAt_samples hfits]
    split_ifs <;> exact ⟨_, rfl, rfl⟩
  · rw [if_pos (Nat.not_le.1 hfits), if_pos (Nat.not_le.1 hfits)]
    exact ⟨_, rfl, rfl⟩

/-- R160: an accepted row leaves one row less, with its value in the accumulator and in the column XOR. -/
theorem RowsLeft.next {left : Nat} {nib : Accumulator} {s : State} (h : RowsLeft (left + 1) nib s)
    (hfits : s.ptr.toNat + 5 ≤ s.cnt.toNat) (heven : (rowOf s).parity = false) {p : Inputs} (hrst : p.rst = false) :
    ∃ t, cycleWith p s = .next t ∧ RowsLeft left (nibWrite nib (Fin.ofNat 10 left) (rowOf s).value) t ∧
      t.samples = s.samples ∧ t.ptr.toNat = s.ptr.toNat + 5 ∧ t.colx = s.colx ^^^ (rowOf s).value := by
  obtain ⟨control, row, cnt, nibbles⟩ := h
  rw [if_neg left.succ_ne_zero] at control
  have hrow : s.row.toNat = 9 - left := by omega
  have hentry : 9 - s.row.toNat = left := by omega
  have hlast : s.row.toNat = 9 ↔ left = 0 := by omega
  rw [cycleWith_run hrst, control, stateAction,
    rowAction_even (old := s.takeInputs p) hfits (by rw [takeInputs_ptr]; omega) heven (by rw [takeInputs_row]; omega)]
  refine ⟨_, rfl, ⟨?_, ?_, cnt, fun j hj => ?_⟩, rfl, plus_toNat s.ptr 5 (by omega), rfl⟩
  · simp only [takeInputs_row, hlast, takeInputs_state, control]
  · show (rowNext s.row).toNat + left = 10
    rw [rowNext_toNat _ (by omega)]
    omega
  · show (nibWrite s.nib (Fin.ofNat 10 (9 - s.row.toNat)) (rowOf s).value)[j] = _
    rw [hentry, nibWrite_get, nibWrite_get]
    split_ifs with hj'
    · rfl
    · exact nibbles j (lt_of_le_of_ne hj fun heq => hj' (by simp [Fin.ext_iff, Fin.ofNat, heq]))

/-- R160, R180, R251: from the first row on, the machine commits what `decode` makes of the rows, a cycle a row. -/
theorem RowsLeft.commitsAfter {left : Nat} {nib : Accumulator} {s : State} (h : RowsLeft left nib s) :
    let r := decodeRows s.samples left s.ptr.toNat nib s.colx
    CommitsAfter s r.rowCycles (r.outcome, r.ident) := by
  induction left generalizing nib s with
  | zero =>
    obtain rfl : s.nib = nib := Vector.ext fun j hj => h.nibbles ⟨j, hj⟩ j.zero_le
    obtain ⟨o, hcause, hdecode⟩ := decodeTrailing_eq_cause h.control
    rw [decodeRows, hdecode]
    exact .of_cause h.busy h.cnt hcause
  | succ left ih =>
    have hs : s.state = .row := h.control
    rw [decodeRows, length_samples]
    by_cases hfits : s.ptr.toNat + 5 ≤ s.cnt.toNat
    · rw [if_neg (Nat.not_lt.2 hfits), rowAt_samples hfits]
      cases hpar : (rowOf s).parity with
      | true =>
        have hcause : pollOutcome s = some OutcomeCode.rowParity := by
          simp [pollOutcome, hs, Nat.not_lt.2 hfits, hpar]
        rw [if_pos rfl]
        exact .of_failure h.busy h.cnt hcause (by decide)
      | false =>
        refine .of_next h.busy fun p hrst => ?_
        obtain ⟨t, ht, hleft, hsamples, hptr, hcolx⟩ := h.next hfits hpar hrst
        have hcommits := ih hleft
        rw [hsamples, hptr, hcolx] at hcommits
        exact ⟨t, ht, hleft.busy, hcommits⟩
    · have hcause : pollOutcome s = some OutcomeCode.noFrame := by
        simp [pollOutcome, hs, Nat.not_le.1 hfits]
      rw [if_pos (Nat.not_le.1 hfits)]
      exact .of_failure h.busy h.cnt hcause (by decide)

/-! The header scan. -/

theorem Scanned.busy {s u : State} {i : Nat} (h : Scanned s u i) : u.state ≠ .idle := by
  rw [h.control]
  decide

/-- R151: as long as no nine set samples have gone by, the scan puts the commit one cycle a sample off. -/
theorem Scanned.commitsAfter {s u : State} {i k n : Nat} {d : OutcomeCode × Option Ident} (hscan : Scanned s u i)
    (hcnt : s.cnt.toNat ≤ 256) (hle : i + k ≤ s.cnt.toNat) (hrun : ∀ j ≤ i + k, setRun s.buf.get j < 9)
    (hthen : ∀ v, Scanned s v (i + k) → CommitsAfter v n d) : CommitsAfter u (n + k) d := by
  induction k generalizing u i with
  | zero => exact hthen u hscan
  | succ k ih =>
    rw [← Nat.succ_add_eq_add_succ] at hle hrun hthen
    refine .of_next hscan.busy fun p hrst => ?_
    obtain ⟨v, hv, hnext⟩ := hscan.next hrst (by omega) hcnt (hrun (i + 1) (by omega))
    exact ⟨v, hv, hnext.busy, ih hnext hle hrun hthen⟩

/-- R150, R250, R251: a scan that finds no header commits NO_FRAME one cycle after the last sample. -/
theorem Scanned.commitsAfter_of_no_header {s : State} (hscan : Scanned s s 0) (hcnt : s.cnt.toNat ≤ 256)
    (hnone : headerEnd s.samples = none) : CommitsAfter s (1 + s.cnt.toNat) (OutcomeCode.noFrame, none) := by
  have hnever := headerEnd_samples_eq_none hnone
  refine hscan.commitsAfter hcnt (by omega) (fun j hj => hnever j (by omega)) fun v hv => ?_
  have hcause : pollOutcome v = some OutcomeCode.noFrame := by
    simp [pollOutcome, hv.control, hv.ptr, hv.cnt]
  exact .of_failure hv.busy (by rw [hv.cnt]; exact hcnt) hcause (by decide)

/-- R150, R250, R251: a scan that finds a header decodes the rows after it. -/
theorem Scanned.commitsAfter_of_header {s : State} (hscan : Scanned s s 0) (hcnt : s.cnt.toNat ≤ 256) {e : Nat}
    (he : headerEnd s.samples = some e) :
    let r := decodeRows s.samples 10 e emptyAccumulator 0#4
    CommitsAfter s (r.rowCycles + e) (r.outcome, r.ident) := by
  obtain ⟨hle, hends, hleast⟩ := headerEnd_samples_eq_some he
  cases e with
  | zero => simp [setRun] at hends
  | succ e =>
    intro r
    rw [Nat.add_comm e 1, ← Nat.add_assoc]
    refine hscan.commitsAfter hcnt (by omega) (fun j hj => hleast j (by omega)) fun v hv => ?_
    rw [Nat.zero_add] at hv
    refine .of_next hv.busy fun p hrst => ?_
    obtain ⟨t, ht, control, ptr, row, colx, cnt, buf, -, -⟩ := hv.found hrst hle hcnt (hleast e e.lt_succ_self) hends
    have hrows : RowsLeft 10 emptyAccumulator t :=
      ⟨control, by rw [row]; rfl, by rw [cnt]; exact hcnt, fun j hj => absurd j.isLt (Nat.not_lt.2 hj)⟩
    have hcommits := hrows.commitsAfter
    rw [samples_congr cnt buf, ptr, colx] at hcommits
    exact ⟨t, ht, hrows.busy, hcommits⟩

/-! The whole poll. -/

/-- R129: with 64 samples CHECK_COUNT starts a header scan of the same samples. -/
theorem cycleWith_checkCount_enough {p : Inputs} {s : State} (hrst : p.rst = false) (hs : s.state = .checkCount)
    (henough : 64 ≤ s.cnt.toNat) :
    ∃ t, cycleWith p s = .next t ∧ Scanned t t 0 ∧ t.cnt = s.cnt ∧ t.samples = s.samples := by
  rw [cycleWith_run hrst, hs, stateAction, checkCountAction, takeInputs_cnt, if_neg (Nat.not_lt.2 henough)]
  exact ⟨_, rfl, ⟨rfl, rfl, rfl, rfl, rfl, rfl, rfl⟩, rfl, rfl⟩

/-- R250, R251: CHECK_COUNT refuses a short poll at once; of another, the header scan decides. -/
theorem commitsAfter_of_checkCount {s : State} (hs : s.state = .checkCount) (hcnt : s.cnt.toNat ≤ 256) :
    CommitsAfter s (postCycles s.samples) (decodeSamples s.samples) := by
  have hbusy : s.state ≠ .idle := by rw [hs]; decide
  rw [postCycles, decodeSamples, length_samples]
  by_cases hshort : s.cnt.toNat < 64
  · have hcause : pollOutcome s = some OutcomeCode.timeout := by simp [pollOutcome, hs, hshort]
    rw [if_pos hshort, if_pos hshort]
    exact .of_failure hbusy hcnt hcause (by decide)
  · rw [if_neg hshort, if_neg hshort]
    have hscan (p : Inputs) (hrst : p.rst = false) := cycleWith_checkCount_enough hrst hs (Nat.le_of_not_lt hshort)
    cases he : headerEnd s.samples with
    | none =>
      dsimp only
      rw [Nat.add_comm 1 (_ + 1), Nat.add_comm _ 1]
      refine .of_next hbusy fun p hrst => ?_
      obtain ⟨t, ht, hstart, cnt, samples⟩ := hscan p hrst
      rw [← samples] at he
      rw [← cnt] at hcnt ⊢
      exact ⟨t, ht, hstart.busy, hstart.commitsAfter_of_no_header hcnt he⟩
    | some e =>
      dsimp only
      rw [Nat.add_assoc, Nat.add_comm 1, Nat.add_comm e]
      refine .of_next hbusy fun p hrst => ?_
      obtain ⟨t, ht, hstart, cnt, samples⟩ := hscan p hrst
      rw [← samples] at he ⊢
      rw [← cnt] at hcnt
      exact ⟨t, ht, hstart.busy, hstart.commitsAfter_of_header hcnt he⟩

/-- Settles O53: the case of `CommitsAfter` that starts in CHECK_COUNT. -/
theorem pollCommitsDecodeOfItsSamples : Obligations.PollCommitsDecodeOfItsSamples :=
  fun _ ps hs hcnt hrst => commitsAfter_of_checkCount hs hcnt ps hrst

end Sys2Proof.Machine

namespace Sys2Proof.Machine

/-! SUPPORT. The decoder read backwards: what a packet that decodes looks like (R80, R83). -/

/-- A byte is a code's byte exactly if the five bits above the code are clear. -/
theorem codeBytes_of_high_clear {b : Byte} (h : b.extractLsb' 3 5 = 0#5) :
    codeBytes (StateName.ofCode (b.extractLsb' 0 3)) = [b] := by
  have hsplit : b.extractLsb' 3 5 ++ b.extractLsb' 0 3 = b :=
    (BitVec.extractLsb'_append_extractLsb'_eq_extractLsb' rfl).trans BitVec.extractLsb'_eq_self
  rw [codeBytes, code_ofCode, BitVec.setWidth_eq_append (by decide), ← h]
  exact congrArg (fun x : Byte => [x]) hsplit

/-- A host word is the packet of its fields if its two top bits are clear. -/
theorem hostPacket_of_high_clear {w : HostWord} (h : w.extractLsb' 14 2 = 0#2) :
    hostPacket (w.extractLsb' 11 3) (w.getLsbD 10) (w.getLsbD 9) (w.getLsbD 8) (w.extractLsb' 0 8) = w := by
  rw [hostPacket, ← h]
  refine BitVec.eq_of_getLsbD_eq fun j hj => ?_
  simp only [BitVec.getLsbD_append, BitVec.getLsbD_extractLsb']
  interval_cases j <;> simp

/-- The bytes of a host word, taken apart again. -/
theorem packetBytes_append (hi lo : Byte) : packetBytes (hi ++ lo) = [lo, hi] := by
  rw [packetBytes, BitVec.extractLsb'_append_eq_right, BitVec.extractLsb'_append_eq_left]

theorem encode_stateRow (n : StateName) : encode n.instr = codeBytes n := by
  cases n <;> rfl

theorem encode_decodePort (rst start idle : Bool) (k : Byte) :
    encode (decodePort rst start idle k.toNat) = packetBytes (hostPacket 0#3 rst start idle k) := by
  have hk : BitVec.ofNat 8 k.toNat = k := (BitVec.ofNat_toNat 8 k).trans k.setWidth_eq
  match rst, start, idle with
  | true, _, _ | false, false, _ | false, true, true | false, true, false => rw [decodePort, encode, hk]

/-- A host word with selector 0 is the packet that the encoder writes for its row; every other is an observation. -/
theorem decodeHost_cases {w : HostWord} {i : Instr} (h : decodeHost w = .ok i) :
    encode i = packetBytes w ∨ ∃ o : Observation, i = o.instr := by
  unfold decodeHost at h
  split at h
  · cases h
  next hhigh =>
    have hw := hostPacket_of_high_clear (not_not.1 hhigh)
    split at h <;> cases h
    next hsel =>
      rw [show w.extractLsb' 11 3 = 0#3 from BitVec.eq_of_toNat_eq hsel] at hw
      rw [encode_decodePort, hw]
      exact .inl rfl
    · exact .inr ⟨.outcome, rfl⟩
    · exact .inr ⟨.ident, rfl⟩
    · exact .inr ⟨.idByte _, rfl⟩
    · exact .inr ⟨.tag, rfl⟩
    · exact .inr ⟨.done, rfl⟩

/-- A packet that decodes to something else than an observation is the one that the encoder writes for it. -/
theorem decode_cases {bs : List Byte} {i : Instr} (h : decode bs = .ok i) :
    encode i = bs ∨ ∃ o : Observation, i = o.instr := by
  match bs with
  | [b] =>
    rw [decode] at h
    split at h <;> cases h
    next hhigh => rw [encode_stateRow, codeBytes_of_high_clear (not_not.1 hhigh)]; exact .inl rfl
  | [lo, hi] =>
    rw [← packetBytes_append hi lo]
    exact decodeHost_cases h
  | [] | _ :: _ :: _ :: _ => cases h

theorem stateRow_ne_observation (n : StateName) (o : Observation) : n.instr ≠ o.instr := by
  cases n <;> cases o <;> nofun

theorem decodePort_ne_observation (rst start idle : Bool) (k : Nat) (o : Observation) :
    decodePort rst start idle k ≠ o.instr := by
  match rst, start, idle with
  | true, _, _ | false, false, _ | false, true, true | false, true, false => cases o <;> nofun

/-- Settles O8, one constructor at a time by the laws of the two formats. -/
theorem decodeOfEncodeIsTheInstruction : Obligations.DecodeOfEncodeIsTheInstruction
  | .idle => Laws.RoundTrip.idle
  | .waitHigh => Laws.RoundTrip.waitHigh
  | .waitLow => Laws.RoundTrip.waitLow
  | .checkCount => Laws.RoundTrip.checkCount
  | .hdrScan => Laws.RoundTrip.hdrScan
  | .row => Laws.RoundTrip.row
  | .final => Laws.RoundTrip.final
  | .unused7 => Laws.RoundTrip.unused7
  | .reset start idle idx => Laws.RoundTrip.reset start idle idx
  | .cycle idle idx => Laws.RoundTrip.cycle idle idx
  | .poll idx => Laws.RoundTrip.poll idx
  | .pollIgnored idx => Laws.RoundTrip.pollIgnored idx
  | .readOutcome => Laws.RoundTrip.readOutcome
  | .readId => Laws.RoundTrip.readId
  | .readIdByte k => Laws.RoundTrip.readIdByte k
  | .tagEvent => Laws.RoundTrip.tagEvent
  | .waitDone => Laws.RoundTrip.waitDone

/-- Settles O9: only an observation has a second packet, and a state row or a port row is no observation. -/
theorem encodeOfDecodeIsThePacket : Obligations.EncodeOfDecodeIsThePacket := by
  refine ⟨fun bs n h => ?_, fun bs rst start idle k h => ?_⟩
  · obtain hpacket | ⟨o, ho⟩ := decode_cases h
    · exact hpacket
    · exact absurd ho (stateRow_ne_observation n o)
  · obtain hpacket | ⟨o, ho⟩ := decode_cases h
    · exact hpacket
    · exact absurd ho (decodePort_ne_observation rst start idle k o)

/-! The rows of the opcode table. -/

/-- R80: a 3-bit table word, in its byte, is the packet of the state that it names. -/
theorem decodeTableWord_code (c : BitVec 3) : decodeTableWord 8 c.toNat = some (StateName.ofCode c).instr := by
  have hbytes : bytesOfNat 1 c.toNat = codeBytes (StateName.ofCode c) := by
    rw [codeBytes, code_ofCode, ← BitVec.ofNat_toNat]
    rfl
  rw [decodeTableWord, hbytes, decode_code]

/-- An 11-bit table word, in its two bytes, is the host packet of its fields. -/
theorem bytesOfNat_host (w : BitVec 11) :
    bytesOfNat 2 w.toNat =
      packetBytes (hostPacket 0#3 (w.getLsbD 10) (w.getLsbD 9) (w.getLsbD 8) (w.extractLsb' 0 8)) := by
  have hword : hostPacket 0#3 (w.getLsbD 10) (w.getLsbD 9) (w.getLsbD 8) (w.extractLsb' 0 8) = w.setWidth 16 := by
    rw [hostPacket]
    refine BitVec.eq_of_getLsbD_eq fun j hj => ?_
    simp only [BitVec.getLsbD_append, BitVec.getLsbD_setWidth, BitVec.getLsbD_extractLsb']
    interval_cases j <;> simp
  have hlow : BitVec.ofNat 8 w.toNat = (w.setWidth 16).extractLsb' 0 8 := BitVec.eq_of_toNat_eq (by simp)
  have hhigh : BitVec.ofNat 8 (w.toNat / 256) = (w.setWidth 16).extractLsb' 8 8 :=
    BitVec.eq_of_toNat_eq (by simp [Nat.shiftRight_eq_div_pow]; omega)
  rw [hword, packetBytes, ← hlow, ← hhigh]
  rfl

/-- R83: an 11-bit table word decodes to the port row of its bits. -/
theorem decodeTableWord_host (w : BitVec 11) :
    decodeTableWord 16 w.toNat =
      some (decodePort (w.getLsbD 10) (w.getLsbD 9) (w.getLsbD 8) (w.extractLsb' 0 8).toNat) := by
  rw [decodeTableWord, bytesOfNat_host, decode_port]

/-- What a mask keeps of a word, at one of the mask's bits. -/
theorem getLsbD_of_mask {w mask value : BitVec 11} (h : w &&& mask = value) {j : Nat} (hj : mask.getLsbD j = true) :
    w.getLsbD j = value.getLsbD j := by
  rw [← h, BitVec.getLsbD_and, hj, Bool.and_true]

/-- Settles O10: each mask of R83 fixes bits 10, 9 and 8 as far as its row's case of `decodePort` asks for them. -/
theorem tableRowsDecodeByMaskAndMatch : Obligations.TableRowsDecodeByMaskAndMatch := by
  refine ⟨fun c => ⟨decodeTableWord_code c, code_ofCode c⟩, fun w => ?_⟩
  rw [decodeTableWord_host]
  refine ⟨fun h => ?_, fun h => ?_, fun h => ?_, fun h => ?_⟩
  · rw [show w.getLsbD 10 = true from getLsbD_of_mask h rfl]
    rfl
  · rw [show w.getLsbD 10 = false from getLsbD_of_mask h rfl, show w.getLsbD 9 = false from getLsbD_of_mask h rfl]
    rfl
  · rw [show w.getLsbD 10 = false from getLsbD_of_mask h rfl, show w.getLsbD 9 = true from getLsbD_of_mask h rfl,
      show w.getLsbD 8 = true from getLsbD_of_mask h rfl]
    rfl
  · rw [show w.getLsbD 10 = false from getLsbD_of_mask h rfl, show w.getLsbD 9 = true from getLsbD_of_mask h rfl,
      show w.getLsbD 8 = false from getLsbD_of_mask h rfl]
    rfl

/-- Settles O11: each word is a closed case of the decoder. -/
theorem writtenOutWordsDecode : Obligations.WrittenOutWordsDecode := by
  unfold Obligations.WrittenOutWordsDecode
  decide

/-! Which instruction a step runs. -/

theorem step_of_decode {s : State} {i : Instr} (h : decode (fetch s).1 = .ok i) : step s = exec i (fetch s).2 := by
  rw [step, h]

/-- Settles O14: it is the rule of a step whose next event is a cycle. -/
theorem portOperationsAreTheCycleStep : Obligations.PortOperationsAreTheCycleStep :=
  fun _ _ _ hscript => step_of_drive hscript

/-- Settles O12: the packet decides what a step runs; a cycle's packet names the port row that is R41's step with its
inputs. -/
theorem stepRunsTheDecodedInstruction : Obligations.StepRunsTheDecodedInstruction := by
  refine ⟨fun s i h => step_of_decode h, fun s p rest hscript => ?_, fun s o rest hscript => step_of_observe hscript,
    fun s hscript => ?_⟩
  · rw [step_of_drive hscript]
    exact (exec_decodePort p { s with script := rest }).symm
  · rw [step_of_empty hscript, step_of_drive rfl, ← hscript]

/-! Placing an instruction (log 15). -/

/-- A placed state row makes its state the current one, and the cycle that comes first runs the current row. -/
theorem step_withAction (n : StateName) (s : State) :
    step (s.withAction n) = exec n.instr (fetch (s.withAction n)).2 := by
  rw [exec_stateRow, step_of_drive rfl]
  rfl

/-- The packet of a placed port row: the control state has been made to agree with the row's idle bit. -/
theorem decode_fetch_withPorts (rst start idle : Bool) {idx : Nat} (hidx : idxOk idx = true) (s : State) :
    decode (fetch (s.withPorts rst start idle idx)).1 = .ok (decodePort rst start idle idx) := by
  have hidle : decide ((s.withPorts rst start idle idx).state = .idle) = idle := by
    cases idle with
    | true => rfl
    | false => by_cases hs : s.state = .idle <;> simp [State.withPorts, hs]
  have hfetch : (fetch (s.withPorts rst start idle idx)).1 =
      packetBytes (hostPacket 0#3 rst start (decide ((s.withPorts rst start idle idx).state = .idle))
        (BitVec.ofNat 8 idx)) := rfl
  rw [hfetch, hidle, decode_port, idx_toNat hidx]

theorem decode_fetch_withObservation (o : Observation) (s : State) :
    decode (fetch (s.withObservation o)).1 = .ok o.instr := decode_observation o

theorem place_stateRow (s : State) (n : StateName) : place s n.instr = s.withAction n := by
  cases n <;> rfl

/-- Every instruction is a state row, or the packet of its place decodes to it. -/
theorem stateRow_or_decode_place (s : State) (i : Instr) (h : i.wf = true) :
    (∃ n : StateName, i = n.instr) ∨ decode (fetch (place s i)).1 = .ok i := by
  cases i with
  | idle => exact .inl ⟨.idle, rfl⟩
  | waitHigh => exact .inl ⟨.waitHigh, rfl⟩
  | waitLow => exact .inl ⟨.waitLow, rfl⟩
  | checkCount => exact .inl ⟨.checkCount, rfl⟩
  | hdrScan => exact .inl ⟨.hdrScan, rfl⟩
  | row => exact .inl ⟨.row, rfl⟩
  | final => exact .inl ⟨.final, rfl⟩
  | unused7 => exact .inl ⟨.unused7, rfl⟩
  | reset start idle idx => exact .inr (decode_fetch_withPorts true start idle h s)
  | cycle idle idx => exact .inr (decode_fetch_withPorts false false idle h s)
  | poll idx => exact .inr (decode_fetch_withPorts false true true h s)
  | pollIgnored idx => exact .inr (decode_fetch_withPorts false true false h s)
  | readOutcome => exact .inr (decode_fetch_withObservation .outcome s)
  | readId => exact .inr (decode_fetch_withObservation .ident s)
  | readIdByte k =>
    have hdecode := decode_fetch_withObservation (.idByte (BitVec.ofNat 8 k)) s
    rw [Observation.instr, idx_toNat h] at hdecode
    exact .inr hdecode
  | tagEvent => exact .inr (decode_fetch_withObservation .tag s)
  | waitDone => exact .inr (decode_fetch_withObservation .done s)

/-- Settles O15: a state row is run as the current one, and any other as what its packet decodes to. -/
theorem placedInstructionRunsNext : Obligations.PlacedInstructionRunsNext := by
  intro s i h
  obtain ⟨n, rfl⟩ | hdecode := stateRow_or_decode_place s i h
  · rw [place_stateRow]
    exact ⟨step_withAction n s, fun hne => absurd rfl (hne n)⟩
  · exact ⟨step_of_decode hdecode, fun _ => hdecode⟩

end Sys2Proof.Machine

namespace Sys2Proof.Machine

/-! SUPPORT. The invariants of R44: every step keeps them. One lemma says what a poll's phase has to establish for the
states in it; each action is then a choice of phase. -/

/-- Settles O3: the values of the reset column are in their ranges, and IDLE asks for no more. -/
theorem resetStateIsLegal : Obligations.ResetStateIsLegal where
  stateUsed := by decide
  outcomeNamed := by decide
  bufCanonical := reset_buf_wf
  cntBound := by decide
  samplingBounds := nofun
  ptrBound := nofun
  hdrRange := by decide
  rowBound := by decide
  rowInRow := nofun
  rowInFinal := nofun
  colxIsXor := nofun
  doneIdle := nofun
  tagSuccess := nofun

section
variable {s : State} (h : Legal s)
include h

theorem Legal.withInputs (p : Inputs) : Legal (s.takeInputs p) := { h with }

theorem Legal.withScript (rest : List HostEvent) : Legal { s with script := rest } := { h with }

theorem Legal.withDrive (rst start : Bool) (idx : Nat) : Legal (s.drive rst start idx) := { h with }

/-- An observation writes no register (R64). -/
theorem Legal.observed (k : Byte) (v : Seen) :
    Legal (({ s with ports := { s.ports with idIdx := k } } : State).see v) := { h with }

/-- The part of the edge that every cycle has in common takes the pulses down, and writes no other register that the
invariants speak of. -/
theorem Legal.captured : Legal (captureEdge s) := { h with doneIdle := nofun, tagSuccess := nofun }

/-- R230. -/
theorem Legal.reset : Legal (resetEdge s) := { resetStateIsLegal with bufCanonical := h.bufCanonical }

/-- R205: in IDLE only the ranges are left of the invariants. -/
theorem Legal.enterIdle {o : OutcomeCode} (ho : o.toNat ≤ 5) (id : Ident) : Legal (commit o { s with id := id }) :=
  { h with
    stateUsed := nofun
    outcomeNamed := ho
    samplingBounds := nofun
    ptrBound := nofun
    rowInRow := nofun
    rowInFinal := nofun
    colxIsXor := nofun
    doneIdle := fun _ => rfl
    tagSuccess := fun htag => ⟨rfl, of_decide_eq_true htag⟩ }

variable (hdone : s.doneR = false)
include hdone

/-- R44 item 1, R130: what sampling asks for. -/
theorem Legal.enterSampling {n : StateName} {cnt : Count} {buf : Memory} {win edge : Timer}
    (hn : n = .waitHigh ∨ n = .waitLow) (hcnt : cnt.toNat < 256) (hbuf : buf.wf = true)
    (hedge : edge.toNat ≤ win.toNat) :
    Legal { s with state := n, cnt := cnt, buf := buf, winMs := win, edgeMs := edge } := by
  obtain rfl | rfl := hn <;> exact
  { h with
    stateUsed := nofun
    bufCanonical := hbuf
    cntBound := hcnt.le
    samplingBounds := fun _ => ⟨hcnt, hedge⟩
    ptrBound := nofun
    rowInRow := nofun
    rowInFinal := nofun
    colxIsXor := nofun
    doneIdle := fun hpulse => by simp [hdone] at hpulse }

/-- R44 item 1: what the end of sampling asks for. -/
theorem Legal.enterCheckCount {cnt : Count} {buf : Memory} (hcnt : cnt.toNat ≤ 256) (hbuf : buf.wf = true)
    (win edge : Timer) :
    Legal { s with state := .checkCount, cnt := cnt, buf := buf, winMs := win, edgeMs := edge } :=
  { h with
    stateUsed := nofun
    bufCanonical := hbuf
    cntBound := hcnt
    samplingBounds := nofun
    ptrBound := nofun
    rowInRow := nofun
    rowInFinal := nofun
    colxIsXor := nofun
    doneIdle := fun hpulse => by simp [hdone] at hpulse }

/-- R29, R44 item 2: what the header scan asks for. -/
theorem Legal.enterHdrScan {ptr : Count} {hdr : HdrCount} (hptr : ptr.toNat ≤ s.cnt.toNat) (henough : 64 ≤ s.cnt.toNat)
    (hhdr : 1 ≤ hdr.toNat ∧ hdr.toNat ≤ 9) : Legal { s with state := .hdrScan, ptr := ptr, hdr := hdr } :=
  { h with
    stateUsed := nofun
    samplingBounds := nofun
    ptrBound := fun _ => ⟨hptr, henough⟩
    hdrRange := hhdr
    rowInRow := nofun
    rowInFinal := nofun
    colxIsXor := nofun
    doneIdle := fun hpulse => by simp [hdone] at hpulse }

/-- R44 items 2 to 4: what the frame asks for. -/
theorem Legal.enterFrame {n : StateName} {ptr : Count} {hdr : HdrCount} {row : RowCount} {nib : Accumulator}
    (hn : n = .row ∨ n = .final) (hrow : n = .row → row.toNat ≤ 9) (hfinal : n = .final → row.toNat = 10)
    (hptr : ptr.toNat ≤ s.cnt.toNat) (henough : 64 ≤ s.cnt.toNat) (hhdr : 1 ≤ hdr.toNat ∧ hdr.toNat ≤ 9) :
    Legal { s with state := n, ptr := ptr, hdr := hdr, row := row, colx := nibXor nib row.toNat, nib := nib } := by
  have hbound : row.toNat ≤ 10 := by
    obtain hn | hn := hn
    · exact (hrow hn).trans (by decide)
    · exact (hfinal hn).le
  obtain rfl | rfl := hn <;> exact
  { h with
    stateUsed := nofun
    samplingBounds := nofun
    ptrBound := fun _ => ⟨hptr, henough⟩
    hdrRange := hhdr
    rowBound := hbound
    rowInRow := hrow
    rowInFinal := hfinal
    colxIsXor := fun _ => rfl
    doneIdle := fun hpulse => by simp [hdone] at hpulse }

end

/-- R124, R130: a tick in both timers keeps the per-edge one at or below the window one. -/
theorem tickInc_le_tickInc {x y : Timer} (h : x.toNat ≤ y.toNat) (tick : Bool) :
    (tickInc tick x).toNat ≤ (tickInc tick y).toNat := by
  rw [tickInc_toNat, tickInc_toNat]
  omega

/-! The actions, from a state whose inputs are at the ports. -/

section
variable {s t : State} (h : Legal s)
include h

theorem Legal.next_of_idleAction (hact : idleAction s (captureEdge s) = .next t) : Legal t := by
  obtain ⟨-, -, rfl⟩ | ⟨-, -, rfl⟩ | ⟨-, rfl⟩ := idleAction_cases hact
  · exact h.captured.enterIdle (by decide) s.id
  · exact h.captured.enterSampling rfl (.inl rfl) (by decide) h.bufCanonical le_rfl
  · exact h.captured

theorem Legal.next_of_waitHighAction (hs : s.state = .waitHigh) (hact : waitHighAction s (captureEdge s) = .next t) :
    Legal t := by
  obtain ⟨(hcnt : s.cnt.toNat < 256), hedge⟩ := h.samplingBounds (.inl hs)
  have hbuf := Memory.wf_put s.buf h.bufCanonical _ hcnt s.d2
  have hplus : (Count.plus s.cnt 1).toNat = s.cnt.toNat + 1 := plus_toNat _ _ (by omega)
  obtain ⟨-, rfl⟩ | ⟨-, -, rfl⟩ | ⟨-, -, hlast, rfl⟩ | ⟨-, -, hmore, rfl⟩ := waitHighAction_cases hact
  · exact h.captured.enterCheckCount rfl h.cntBound h.bufCanonical _ _
  · exact h.captured.enterSampling rfl (.inl hs) hcnt h.bufCanonical (tickInc_le_tickInc hedge _)
  · exact h.captured.enterCheckCount rfl (by omega) hbuf _ _
  · exact h.captured.enterSampling rfl (.inr rfl) (by omega) hbuf (Nat.zero_le _)

theorem Legal.next_of_waitLowAction (hs : s.state = .waitLow) (hact : waitLowAction s (captureEdge s) = .next t) :
    Legal t := by
  obtain ⟨hcnt, hedge⟩ := h.samplingBounds (.inr hs)
  obtain ⟨-, rfl⟩ | ⟨-, -, rfl⟩ | ⟨-, -, rfl⟩ := waitLowAction_cases hact
  · exact h.captured.enterCheckCount rfl h.cntBound h.bufCanonical _ _
  · exact h.captured.enterSampling rfl (.inr hs) hcnt h.bufCanonical (tickInc_le_tickInc hedge _)
  · exact h.captured.enterSampling rfl (.inl rfl) hcnt h.bufCanonical (Nat.zero_le _)

theorem Legal.next_of_checkCountAction (hact : checkCountAction s (captureEdge s) = .next t) : Legal t := by
  obtain ⟨-, rfl⟩ | ⟨henough, rfl⟩ := checkCountAction_cases hact
  · exact h.captured.enterIdle (by decide) s.id
  · exact h.captured.enterHdrScan rfl (Nat.zero_le _) henough (by decide)

theorem Legal.next_of_hdrScanAction (hs : s.state = .hdrScan) (hact : hdrScanAction s (captureEdge s) = .next t) :
    Legal t := by
  obtain ⟨-, henough⟩ := h.ptrBound (.inl hs)
  obtain ⟨-, rfl⟩ | ⟨hmore, hidx, hscan⟩ := hdrScanAction_cases hact
  · exact h.captured.enterIdle (by decide) s.id
  have hptr : (Count.plus s.ptr 1).toNat ≤ s.cnt.toNat := by
    rw [plus_toNat _ _ (by omega)]
    exact hmore
  have hrange : 1 ≤ s.hdr.toNat ∧ s.hdr.toNat ≤ 9 := h.hdrRange
  obtain ⟨-, -, rfl⟩ | ⟨-, hne, rfl⟩ | ⟨-, rfl⟩ := hscan
  · exact h.captured.enterFrame (nib := s.nib) rfl (.inl rfl) (fun _ => by decide) nofun hptr henough (by decide)
  · have hdown := hdrDown_toNat s hrange.1
    have hne1 : s.hdr.toNat ≠ 1 := fun heq => hne (BitVec.eq_of_toNat_eq heq)
    exact hs ▸ h.captured.enterHdrScan rfl hptr henough ⟨by omega, by omega⟩
  · exact hs ▸ h.captured.enterHdrScan rfl hptr henough (by decide)

theorem Legal.next_of_rowAction (hs : s.state = .row) (hact : rowAction s (captureEdge s) = .next t) : Legal t := by
  obtain ⟨-, henough⟩ := h.ptrBound (.inr (.inl hs))
  have hrow := h.rowInRow hs
  obtain ⟨-, rfl⟩ | ⟨hfits, -, ⟨-, rfl⟩ | ⟨-, -, rfl⟩⟩ := rowAction_cases hact
  · exact h.captured.enterIdle (by decide) s.id
  · exact h.captured.enterIdle (by decide) s.id
  · have hnext : (rowNext s.row).toNat = s.row.toNat + 1 := rowNext_toNat _ (by omega)
    have hptr : (Count.plus s.ptr 5).toNat ≤ s.cnt.toNat := by
      have hcnt : s.cnt.toNat ≤ 256 := h.cntBound
      rw [plus_toNat _ _ (by omega)]
      exact hfits
    have hcolx : s.colx ^^^ (rowOf s).value =
        nibXor (nibWrite s.nib (Fin.ofNat 10 (9 - s.row.toNat)) (rowOf s).value) (rowNext s.row).toNat := by
      rw [hnext, nibXor_nibWrite _ _ hrow, h.colxIsXor (.inl hs)]
    rw [hcolx]
    simp only [row_eq_nine_iff, hs]
    by_cases hlast : s.row.toNat = 9
    · rw [if_pos hlast]
      exact h.captured.enterFrame rfl (.inr rfl) nofun (fun _ => by omega) hptr henough h.hdrRange
    · rw [if_neg hlast]
      exact h.captured.enterFrame rfl (.inl rfl) (fun _ => by omega) nofun hptr henough h.hdrRange

theorem Legal.next_of_finalAction (hact : finalAction s (captureEdge s) = .next t) : Legal t := by
  obtain ⟨-, rfl⟩ | ⟨-, -, ⟨-, rfl⟩ | ⟨-, -, rfl⟩ | ⟨-, -, rfl⟩⟩ := finalAction_cases hact
  · exact h.captured.enterIdle (by decide) s.id
  · exact h.captured.enterIdle (by decide) s.id
  · exact h.captured.enterIdle (by decide) s.id
  · exact h.captured.enterIdle (by decide) (assemble s.nib)

theorem Legal.next_of_stateAction (hact : stateAction s.state s (captureEdge s) = .next t) : Legal t := by
  cases hs : s.state <;> rw [hs] at hact
  case idle => exact h.next_of_idleAction hact
  case waitHigh => exact h.next_of_waitHighAction hs hact
  case waitLow => exact h.next_of_waitLowAction hs hact
  case checkCount => exact h.next_of_checkCountAction hact
  case hdrScan => exact h.next_of_hdrScanAction hs hact
  case row => exact h.next_of_rowAction hs hact
  case final => exact h.next_of_finalAction hact
  case unused7 => exact absurd hs h.stateUsed

theorem Legal.next_of_cycleWith {p : Inputs} (hcycle : cycleWith p s = .next t) : Legal t := by
  obtain ⟨-, rfl⟩ | ⟨-, hact⟩ := cycleWith_cases hcycle
  · exact (h.withInputs p).reset
  · exact (h.withInputs p).next_of_stateAction hact

end

/-- Settles O5: a step is a cycle or an observation, and both keep the invariants. -/
theorem everyStepKeepsLegalStates : Obligations.EveryStepKeepsLegalStates := by
  intro s t h hstep
  obtain ⟨-, hcycle⟩ | ⟨p, rest, -, hcycle⟩ | ⟨o, rest, -, hobs⟩ := step_cases hstep
  · exact h.next_of_cycleWith hcycle
  · exact (h.withScript rest).next_of_cycleWith hcycle
  · obtain ⟨k, v, rfl⟩ := exec_observation_cases hobs
    exact (h.withScript rest).observed k v

/-! From a legal state every action answers (R84, R200). -/

section
variable {s : State} (h : Legal s)
include h

/-- R44 item 1: every index that a legal state reads or writes is below 256. -/
theorem Legal.stateAction_answers (new : State) : ∃ t, stateAction s.state s new = .next t := by
  have hcnt : s.cnt.toNat ≤ 256 := h.cntBound
  cases hcause : pollOutcome s with
  | some o => exact stateAction_answers_of_cause hcause hcnt new
  | none =>
    cases hs : s.state with
    | idle =>
      rw [stateAction, idleAction]
      split_ifs <;> exact ⟨_, rfl⟩
    | waitHigh =>
      obtain ⟨hlt, -⟩ := h.samplingBounds (.inl hs)
      rw [stateAction, waitHighAction, Memory.bufWrite_of_lt _ hlt]
      dsimp only
      split_ifs <;> exact ⟨_, rfl⟩
    | waitLow =>
      rw [stateAction, waitLowAction]
      split_ifs <;> exact ⟨_, rfl⟩
    | checkCount =>
      rw [stateAction, checkCountAction]
      split_ifs <;> exact ⟨_, rfl⟩
    | hdrScan =>
      have hmore : s.ptr.toNat < s.cnt.toNat := by simpa [pollOutcome, hs] using hcause
      rw [stateAction, hdrScanAction_sample hmore (by omega)]
      split_ifs <;> exact ⟨_, rfl⟩
    | row =>
      have hno : s.ptr.toNat + 5 ≤ s.cnt.toNat ∧ (rowOf s).parity = false := by
        simp only [pollOutcome, hs] at hcause
        split_ifs at hcause with hshort hodd
        exact ⟨Nat.le_of_not_lt hshort, Bool.eq_false_iff.2 hodd⟩
      obtain ⟨hfits, heven⟩ := hno
      exact ⟨_, rowAction_even hfits (by omega) heven (h.rowInRow hs) new⟩
    | final =>
      simp only [pollOutcome, hs] at hcause
      split_ifs at hcause
    | unused7 => exact absurd hs h.stateUsed

theorem Legal.cycleWith_answers (p : Inputs) : ∃ t, cycleWith p s = .next t := by
  cases hrst : p.rst with
  | true => exact ⟨_, clockEdge_rst _ (s.takeInputs p) hrst⟩
  | false =>
    rw [cycleWith_run hrst]
    exact (h.withInputs p).stateAction_answers _

/-- R84: the one observation that can be refused is that of a reserved outcome code. -/
theorem Legal.observation_answers (o : Observation) : ∃ t, exec o.instr s = .next t := by
  cases o with
  | outcome => exact ⟨_, if_pos (decide_eq_true h.outcomeNamed)⟩
  | ident | idByte k | tag | done => exact ⟨_, rfl⟩

end

/-- Settles O6: a step is a cycle, scripted or free, or an observation. -/
theorem legalStatesNeverStop : Obligations.LegalStatesNeverStop := by
  intro s h
  rw [stepsOn]
  match hscript : s.script with
  | [] =>
    rw [step_of_empty hscript]
    exact h.cycleWith_answers _
  | .drive p :: rest =>
    rw [step_of_drive hscript]
    exact (h.withScript rest).cycleWith_answers p
  | .observe o :: rest =>
    rw [step_of_observe hscript]
    exact (h.withScript rest).observation_answers o

end Sys2Proof.Machine

namespace Sys2Proof.Machine

/-! SUPPORT. What a state action leaves alone: the synchronizers, the ports and the model's own fields; and the buffer,
but for WAIT_HIGH's append (R41, R51). -/

/-- `t` has the synchronizers, the lines and the parameter of `new`. -/
structure KeepsCapture (new t : State) : Prop where
  clock : t.c1 = new.c1 ∧ t.c2 = new.c2
  data : t.d1 = new.d1 ∧ t.d2 = new.d2
  lines : t.lines = new.lines
  draw : t.draw = new.draw
  windowMs : t.windowMs = new.windowMs

/-- R41, R120: whatever the control state, the action writes no synchronizer stage. -/
theorem stateAction_keepsCapture {n : StateName} {old new t : State} (h : stateAction n old new = .next t) :
    KeepsCapture new t := by
  cases n with
  | idle =>
    obtain ⟨-, -, rfl⟩ | ⟨-, -, rfl⟩ | ⟨-, rfl⟩ := idleAction_cases h <;>
      exact ⟨⟨rfl, rfl⟩, ⟨rfl, rfl⟩, rfl, rfl, rfl⟩
  | waitHigh =>
    obtain ⟨-, rfl⟩ | ⟨-, -, rfl⟩ | ⟨-, -, -, rfl⟩ | ⟨-, -, -, rfl⟩ := waitHighAction_cases h <;>
      exact ⟨⟨rfl, rfl⟩, ⟨rfl, rfl⟩, rfl, rfl, rfl⟩
  | waitLow =>
    obtain ⟨-, rfl⟩ | ⟨-, -, rfl⟩ | ⟨-, -, rfl⟩ := waitLowAction_cases h <;>
      exact ⟨⟨rfl, rfl⟩, ⟨rfl, rfl⟩, rfl, rfl, rfl⟩
  | checkCount =>
    obtain ⟨-, rfl⟩ | ⟨-, rfl⟩ := checkCountAction_cases h <;> exact ⟨⟨rfl, rfl⟩, ⟨rfl, rfl⟩, rfl, rfl, rfl⟩
  | hdrScan =>
    obtain ⟨-, rfl⟩ | ⟨-, -, ⟨-, -, rfl⟩ | ⟨-, -, rfl⟩ | ⟨-, rfl⟩⟩ := hdrScanAction_cases h <;>
      exact ⟨⟨rfl, rfl⟩, ⟨rfl, rfl⟩, rfl, rfl, rfl⟩
  | row =>
    obtain ⟨-, rfl⟩ | ⟨-, -, ⟨-, rfl⟩ | ⟨-, -, rfl⟩⟩ := rowAction_cases h <;>
      exact ⟨⟨rfl, rfl⟩, ⟨rfl, rfl⟩, rfl, rfl, rfl⟩
  | final =>
    obtain ⟨-, rfl⟩ | ⟨-, -, ⟨-, rfl⟩ | ⟨-, -, rfl⟩ | ⟨-, -, rfl⟩⟩ := finalAction_cases h <;>
      exact ⟨⟨rfl, rfl⟩, ⟨rfl, rfl⟩, rfl, rfl, rfl⟩
  | unused7 =>
    obtain rfl := unused7Action_cases (old := old) h
    exact ⟨⟨rfl, rfl⟩, ⟨rfl, rfl⟩, rfl, rfl, rfl⟩

/-- R41, R120: a non-reset cycle leaves in the synchronizers what the edge put there. -/
theorem cycleWith_keepsCapture {p : Inputs} {s t : State} (hrst : p.rst = false) (h : cycleWith p s = .next t) :
    KeepsCapture (captureEdge (s.takeInputs p)) t := stateAction_keepsCapture (cycleWith_action hrst h)

/-- R51: WAIT_HIGH's append of `d2` at `cnt`. -/
structure AppendsSample (old t : State) : Prop where
  control : old.state = .waitHigh
  buf : t.buf = old.buf.put old.cnt.toNat old.d2
  cnt : t.cnt = Count.plus old.cnt 1

/-- R51: an action of the current state leaves the buffer, or appends one sample. -/
theorem stateAction_buf {old new t : State} (hnew : new.buf = old.buf) (h : stateAction old.state old new = .next t) :
    t.buf = old.buf ∨ AppendsSample old t := by
  cases hs : old.state <;> rw [hs] at h
  case idle => obtain ⟨-, -, rfl⟩ | ⟨-, -, rfl⟩ | ⟨-, rfl⟩ := idleAction_cases h <;> exact .inl hnew
  case waitHigh =>
    obtain ⟨-, rfl⟩ | ⟨-, -, rfl⟩ | ⟨-, -, -, rfl⟩ | ⟨-, -, -, rfl⟩ := waitHighAction_cases h
    · exact .inl hnew
    · exact .inl hnew
    · exact .inr ⟨hs, rfl, rfl⟩
    · exact .inr ⟨hs, rfl, rfl⟩
  case waitLow => obtain ⟨-, rfl⟩ | ⟨-, -, rfl⟩ | ⟨-, -, rfl⟩ := waitLowAction_cases h <;> exact .inl hnew
  case checkCount => obtain ⟨-, rfl⟩ | ⟨-, rfl⟩ := checkCountAction_cases h <;> exact .inl hnew
  case hdrScan =>
    obtain ⟨-, rfl⟩ | ⟨-, -, ⟨-, -, rfl⟩ | ⟨-, -, rfl⟩ | ⟨-, rfl⟩⟩ := hdrScanAction_cases h <;> exact .inl hnew
  case row => obtain ⟨-, rfl⟩ | ⟨-, -, ⟨-, rfl⟩ | ⟨-, -, rfl⟩⟩ := rowAction_cases h <;> exact .inl hnew
  case final =>
    obtain ⟨-, rfl⟩ | ⟨-, -, ⟨-, rfl⟩ | ⟨-, -, rfl⟩ | ⟨-, -, rfl⟩⟩ := finalAction_cases h <;> exact .inl hnew
  case unused7 =>
    obtain rfl := unused7Action_cases (old := old) h
    exact .inl hnew

theorem cycleWith_buf {p : Inputs} {s t : State} (h : cycleWith p s = .next t) :
    t.buf = s.buf ∨ AppendsSample s t := by
  obtain ⟨-, rfl⟩ | ⟨-, hact⟩ := cycleWith_cases h
  · exact .inl rfl
  · obtain hkeep | ⟨control, buf, cnt⟩ :=
      stateAction_buf (old := s.takeInputs p) (new := captureEdge (s.takeInputs p)) rfl hact
    · exact .inl hkeep
    · exact .inr ⟨control, buf, cnt⟩

theorem step_buf {s t : State} (h : step s = .next t) : t.buf = s.buf ∨ AppendsSample s t := by
  obtain ⟨-, hcycle⟩ | ⟨p, rest, -, hcycle⟩ | ⟨o, rest, -, hobs⟩ := step_cases h
  · exact cycleWith_buf hcycle
  · obtain hkeep | ⟨control, buf, cnt⟩ := cycleWith_buf hcycle
    · exact .inl hkeep
    · exact .inr ⟨control, buf, cnt⟩
  · obtain ⟨k, v, rfl⟩ := exec_observation_cases hobs
    exact .inl rfl

/-- Settles O23: the law of a write, applied to the one append. -/
theorem bufferIsAppendOnly : Obligations.BufferIsAppendOnly := by
  intro s t h hstep
  obtain hkeep | ⟨control, buf, cnt⟩ := step_buf hstep
  · exact ⟨fun i _ => by rw [hkeep], fun hne => absurd hkeep hne⟩
  · have hlt : s.cnt.toNat < 256 := (h.samplingBounds (.inl control)).1
    have hget (i : Nat) : t.buf.get i = if i = s.cnt.toNat then s.d2 else s.buf.get i := by
      rw [buf, Memory.get_put _ h.bufCanonical]
    refine ⟨fun i hi => by rw [hget, if_neg hi], fun _ => ⟨control, ?_, by rw [hget, if_pos rfl]⟩⟩
    rw [cnt, plus_toNat _ _ (by omega)]

/-- Settles O20: a cycle with no cause keeps the registers behind the outputs, but for the pulses that its edge takes
down. -/
theorem cyclesWithoutCommitKeepTheOutputs : Obligations.CyclesWithoutCommitKeepTheOutputs := by
  intro p s t hrst hnone h
  obtain ⟨o, hcause, -⟩ | ⟨-, hkeep⟩ := cycleWith_outputs hrst h
  · simp [hnone] at hcause
  · exact ⟨hkeep.outcome, hkeep.id, hkeep.doneR, hkeep.tagR⟩

/-! The synchronizers (R120, R241). -/

/-- R41, R83: each row that is a non-reset edge leaves in the synchronizers what the edge put there; the host's inputs
that a port row drives have no part in it. -/
theorem exec_keepsCapture {i : Instr} {s t : State}
    (hi : (∃ n : StateName, i = n.instr) ∧ s.ports.rst = false ∨ (∃ b k, i = .cycle b k) ∨ (∃ k, i = .poll k) ∨
      ∃ k, i = .pollIgnored k)
    (h : exec i s = .next t) : KeepsCapture (captureEdge s) t := by
  obtain ⟨⟨n, rfl⟩, hrst⟩ | ⟨b, k, rfl⟩ | ⟨k, rfl⟩ | ⟨k, rfl⟩ := hi
  · rw [exec_stateRow_run n hrst] at h
    exact stateAction_keepsCapture h
  · have hact : stateAction s.state (s.drive false false k) (captureEdge (s.drive false false k)) = .next t := h
    exact { stateAction_keepsCapture hact with }
  · have hact : stateAction .idle (s.drive false true k) (captureEdge (s.drive false true k)) = .next t := h
    exact { stateAction_keepsCapture hact with }
  · have hact : stateAction s.state (s.drive false false k) (captureEdge (s.drive false true k)) = .next t := h
    exact { stateAction_keepsCapture hact with }

/-- R241: what a reader that keeps its timing keeps in the next cycle. -/
theorem readerKeepsTiming_cons {h : LineHistory} {p : Inputs} {ps : List Inputs}
    (hkept : readerKeepsTiming h (p :: ps) = true) :
    h.shortPhase p = false ∧ h.dataSetup p = false ∧ h.dataHold p = false ∧ readerKeepsTiming (h.push p) ps = true := by
  simp only [readerKeepsTiming, Bool.and_eq_true, Bool.not_eq_true'] at hkept
  obtain ⟨⟨⟨⟨-, hphase⟩, hsetup⟩, hhold⟩, hrest⟩ := hkept
  exact ⟨hphase, hsetup, hhold, hrest⟩

/-! The three tests of R241, as propositions. -/

theorem shortPhase_iff (h : LineHistory) (p : Inputs) :
    h.shortPhase p = true ↔ h.clk ≠ .unsettled ∧ h.clkBefore ≠ h.clk ∧ p.rfidClk ≠ h.clk := by
  simp [LineHistory.shortPhase, and_assoc]

theorem dataSetup_iff (h : LineHistory) (p : Inputs) :
    h.dataSetup p = true ↔ mayRise h.clk p.rfidClk = true ∧ p.rfidData ≠ h.data := by
  simp [LineHistory.dataSetup]

theorem dataHold_iff (h : LineHistory) (p : Inputs) :
    h.dataHold p = true ↔ mayRise h.clkBefore h.clk = true ∧ p.rfidData ≠ h.data := by
  simp [LineHistory.dataHold]

/-- Settles O18: the three tests, on the levels that the history holds after `p`. -/
theorem readerTimingIsTwoPeriodPhasesAndStableData : Obligations.ReaderTimingIsTwoPeriodPhasesAndStableData := by
  intro h p q hp
  have hsettled : p.rfidClk ≠ .unsettled := by obtain hp | hp := hp <;> rw [hp] <;> nofun
  rw [← Bool.not_eq_true, ← Bool.not_eq_true, shortPhase_iff, dataSetup_iff, dataHold_iff]
  refine ⟨and_iff_right hsettled, fun hlow hhigh => ?_, fun hno => ?_⟩
  · have hrise : mayRise h.clk p.rfidClk = true := by rw [hlow, hhigh]; rfl
    exact ⟨and_iff_right hrise, and_iff_right hrise⟩
  · have hrise : mayRise h.clk p.rfidClk ≠ true := by obtain hp | hh := hno <;> simp [mayRise, *]
    exact ⟨fun hsetup => hrise hsetup.1, fun hhold => hrise hhold.1⟩

/-- R120, D28, log 5: the second stages after two cycles: what the first one captured, or the draw where the inputs of
the second one show that its timing was broken. -/
theorem runCycles_two_capture {p q : Inputs} {s t : State} (hrstp : p.rst = false) (hrstq : q.rst = false)
    (h : runCycles [p, q] s = .next t) :
    t.c2 = (if (s.lines.push p).shortPhase q then Config.freeClkCapture s.draw
      else p.rfidClk.capture (Config.freeClkCapture s.draw)) ∧
    t.d2 = (if (s.lines.push p).dataHold q then Config.freeDataCapture s.draw else (s.takeInputs p).dataCapture) := by
  obtain ⟨u, hfirst, hrest⟩ := runCycles_cons_cases h
  obtain ⟨v, hsecond, hend⟩ := runCycles_cons_cases hrest
  cases hend
  obtain ⟨⟨huc1, -⟩, ⟨hud1, -⟩, hulines, hudraw, -⟩ := cycleWith_keepsCapture hrstp hfirst
  obtain ⟨⟨-, htc2⟩, ⟨-, htd2⟩, -, -, -⟩ := cycleWith_keepsCapture hrstq hsecond
  rw [captureEdge_lines, takeInputs_lines, takeInputs_ports] at hulines
  rw [captureEdge_draw, takeInputs_draw] at hudraw
  rw [captureEdge_c2, takeInputs_c1, hulines, hudraw, huc1] at htc2
  rw [captureEdge_d2, takeInputs_d1, hulines, hudraw, hud1] at htd2
  exact ⟨htc2, htd2⟩

/-- Settles O16: no action writes a synchronizer, and where R241 is kept no draw replaces what the edge captured. -/
theorem synchronizerRunsInEveryCycle : Obligations.SynchronizerRunsInEveryCycle := by
  refine ⟨fun i s t hi h => ?_, fun s t p q hrstp hrstq hkept h => ?_⟩
  · obtain ⟨⟨hc1, hc2⟩, ⟨hd1, hd2⟩, -, -, -⟩ := exec_keepsCapture hi h
    rw [captureEdge_c1] at hc1
    rw [captureEdge_d1] at hd1
    refine ⟨hc2, hd2, fun hlow => by rw [hc1, hlow, capture_low], fun hhigh => by rw [hc1, hhigh, capture_high],
      fun hsetup hhold => ?_⟩
    rw [dataCapture_of_kept s hsetup hhold] at hd1
    exact ⟨fun hlow => by rw [hd1, hlow, capture_low], fun hhigh => by rw [hd1, hhigh, capture_high]⟩
  · obtain ⟨-, hsetup, hhold, hnext⟩ := readerKeepsTiming_cons hkept
    obtain ⟨hphase, -, hholdNext, -⟩ := readerKeepsTiming_cons hnext
    obtain ⟨hc2, hd2⟩ := runCycles_two_capture hrstp hrstq h
    rw [hphase, if_neg Bool.false_ne_true] at hc2
    rw [hholdNext, if_neg Bool.false_ne_true, dataCapture_of_kept (s.takeInputs p) hsetup hhold,
      takeInputs_ports] at hd2
    exact ⟨fun hlow => by rw [hc2, hlow, capture_low], fun hhigh => by rw [hc2, hhigh, capture_high],
      fun hlow => by rw [hd2, hlow, capture_low], fun hhigh => by rw [hd2, hhigh, capture_high]⟩

/-- R120, D28: the draw where the data line is unsettled, or moves where R241 wants it stable. -/
theorem dataCapture_of_spoiled {s : State}
    (h : s.ports.rfidData = .unsettled ∨ s.lines.dataSetup s.ports = true ∨ s.lines.dataHold s.ports = true) :
    s.dataCapture = Config.freeDataCapture s.draw := by
  rw [State.dataCapture]
  split
  · rfl
  next hkept =>
    obtain hunsettled | hsetup | hhold := h
    · rw [hunsettled, capture_unsettled]
    · simp [hsetup] at hkept
    · simp [hhold] at hkept

theorem Legal.runCycles_answers {s : State} (h : Legal s) (ps : List Inputs) : ∃ t, runCycles ps s = .next t := by
  induction ps generalizing s with
  | nil => exact ⟨s, rfl⟩
  | cons p ps ih =>
    obtain ⟨u, hu⟩ := h.cycleWith_answers p
    rw [runCycles_cons_of_next hu]
    exact ih (h.next_of_cycleWith hu)

/-- Settles O17: a legal state answers, and each spoiled capture is the draw of its own edge, whichever of the two
cycles shows it. -/
theorem readerTimingViolationMakesTheCaptureADraw : Obligations.ReaderTimingViolationMakesTheCaptureADraw := by
  intro s p q hlegal hrstp hrstq
  obtain ⟨t, ht⟩ := hlegal.runCycles_answers [p, q]
  obtain ⟨hc2, hd2⟩ := runCycles_two_capture hrstp hrstq ht
  refine ⟨t, ht, fun hspoiled => ?_, fun hspoiled => ?_, fun hlevel hphase => ?_⟩
  · obtain hunsettled | hphase := hspoiled
    · rw [hc2, hunsettled, capture_unsettled, ite_self]
    · rw [hc2, if_pos hphase]
  · rw [hd2]
    split
    · rfl
    next hkept =>
      refine dataCapture_of_spoiled (s := s.takeInputs p) ?_
      obtain hunsettled | hsetup | hhold | hholdNext := hspoiled
      · exact .inl hunsettled
      · exact .inr (.inl hsetup)
      · exact .inr (.inr hhold)
      · exact absurd hholdNext hkept
  · rw [hc2, hphase, if_neg Bool.false_ne_true]
    obtain hlow | hhigh := hlevel
    · rw [hlow]; rfl
    · rw [hhigh]; rfl

/-! The port rows from a legal state (R41, R83, R101). -/

/-- R41: a non-reset edge from a legal state answers what the action of its control state does. -/
theorem Legal.clockEdge_answers {s : State} (h : Legal s) (hrst : s.ports.rst = false) :
    ∃ t, clockEdge (stateAction s.state) s = .next t := by
  rw [clockEdge_run _ _ hrst]
  exact h.stateAction_answers _

/-- Settles O34: both rows are the same clock edge. -/
theorem cycleRunsTheStateAction : Obligations.CycleRunsTheStateAction := by
  intro s idle idx h
  obtain ⟨t, ht⟩ := (h.withDrive false false idx).clockEdge_answers rfl
  exact ⟨t, ht, (exec_stateRow s.state (s.drive false false idx)).trans ht⟩

/-- R22, R101: no action reads or writes the ports of the state that it completes. -/
theorem stateAction_withPorts {n : StateName} {old new t : State} (ports : Inputs)
    (h : stateAction n old new = .next t) :
    stateAction n old { new with ports := ports } = .next { t with ports := ports } := by
  cases n with
  | idle =>
    simp only [stateAction, idleAction] at h ⊢
    split_ifs at h ⊢ <;> cases h <;> rfl
  | waitHigh =>
    simp only [stateAction, waitHighAction] at h ⊢
    cases hw : old.buf.bufWrite old.cnt.toNat old.d2 <;> simp only [hw] at h ⊢
    all_goals split_ifs at h ⊢ <;> cases h <;> rfl
  | waitLow =>
    simp only [stateAction, waitLowAction] at h ⊢
    split_ifs at h ⊢ <;> cases h <;> rfl
  | checkCount =>
    simp only [stateAction, checkCountAction] at h ⊢
    split_ifs at h ⊢ <;> cases h <;> rfl
  | hdrScan =>
    simp only [stateAction, hdrScanAction] at h ⊢
    cases hr : old.buf.bufRead old.ptr.toNat <;> simp only [hr] at h ⊢
    all_goals split_ifs at h ⊢ <;> cases h <;> rfl
  | row =>
    simp only [stateAction, rowAction] at h ⊢
    cases hr : readRow old.buf old.ptr.toNat <;> cases hj : nibIndex old.row <;> simp only [hr, hj] at h ⊢
    all_goals split_ifs at h ⊢ <;> cases h <;> rfl
  | final =>
    simp only [stateAction, finalAction] at h ⊢
    cases hr : readRow old.buf old.ptr.toNat <;> simp only [hr] at h ⊢
    all_goals split_ifs at h ⊢ <;> cases h <;> rfl
  | unused7 => cases h; rfl

theorem stateAction_ports {n : StateName} {old new t : State} (h : stateAction n old new = .next t) :
    t.ports = new.ports := by
  have hsame : stateAction n old new = .next { t with ports := new.ports } := stateAction_withPorts new.ports h
  rw [h] at hsame
  injection hsame with ht
  rw [ht]

/-- Settles O36: the start request is at the port of the state that the cycle leaves, and nowhere else. -/
theorem startIsIgnoredWhileBusy : Obligations.StartIsIgnoredWhileBusy := by
  intro s idx h hbusy
  obtain ⟨t, ht⟩ := (h.withDrive false false idx).stateAction_answers (captureEdge (s.drive false false idx))
  have hports : t.ports = (s.drive false false idx).ports :=
    stateAction_ports (new := captureEdge _) ht
  have hstart : stateAction s.state (s.drive false false idx) (captureEdge (s.drive false true idx)) =
      .next { t with ports := { t.ports with start := true } } := by
    rw [hports]
    exact stateAction_withPorts (s.drive false true idx).ports ht
  refine ⟨t, ht, hstart, ?_⟩
  rw [exec_stateRow_run s.state rfl]
  exact (stateAction_ignores_start s.state hbusy (s.drive false false idx) _ true).trans hstart

end Sys2Proof.Machine

namespace Sys2Proof.Machine

/-! SUPPORT. Registers left over from an earlier poll (R43, R52). As for the invariants, one lemma says what each phase
of a poll needs the two states to agree on; in each action both states take the same branch. -/

/-- Both answer a next state, and the two agree on everything a rule can still read. -/
def LiveNext (a b : Result) : Prop := ∃ s t, a = .next s ∧ b = .next t ∧ LiveEq s t

theorem LiveNext.of_next {s t : State} (h : LiveEq s t) : LiveNext (.next s) (.next t) := ⟨s, t, rfl, rfl, h⟩

section
variable {s t : State} (h : LiveEq s t)
include h

theorem LiveEq.withScript (rest : List HostEvent) : LiveEq { s with script := rest } { t with script := rest } := by
  obtain ⟨hports, hlines, -, hobserved, hdraw, hwindow⟩ := h.outside
  exact { h with outside := ⟨hports, hlines, rfl, hobserved, hdraw, hwindow⟩ }

theorem LiveEq.withInputs (p : Inputs) : LiveEq (s.takeInputs p) (t.takeInputs p) := by
  obtain ⟨hc1, hc2, hd1, hd2⟩ := h.synchronizer
  obtain ⟨-, hlines, hscript, hobserved, hdraw, hwindow⟩ := h.outside
  exact
  { h with
    synchronizer :=
      ⟨by rw [takeInputs_c1, takeInputs_c1, hlines, hdraw, hc1], hc2,
        by rw [takeInputs_d1, takeInputs_d1, hlines, hdraw, hd1], hd2⟩
    outside := ⟨rfl, hlines, hscript, hobserved, hdraw, hwindow⟩ }

theorem LiveEq.withIndex (k : Byte) :
    LiveEq { s with ports := { s.ports with idIdx := k } } { t with ports := { t.ports with idIdx := k } } := by
  obtain ⟨hports, hlines, hscript, hobserved, hdraw, hwindow⟩ := h.outside
  exact { h with outside := ⟨by simp [hports], hlines, hscript, hobserved, hdraw, hwindow⟩ }

theorem LiveEq.see (v : Seen) : LiveEq (s.see v) (t.see v) := by
  obtain ⟨hports, hlines, hscript, hobserved, hdraw, hwindow⟩ := h.outside
  exact { h with outside := ⟨hports, hlines, hscript, by simp [hobserved], hdraw, hwindow⟩ }

/-- R41: the part of the edge that every cycle has in common reads live registers only. -/
theorem LiveEq.captured : LiveEq (captureEdge s) (captureEdge t) := by
  obtain ⟨hc1, hc2, hd1, hd2⟩ := h.synchronizer
  obtain ⟨hports, hlines, hscript, hobserved, hdraw, hwindow⟩ := h.outside
  exact
  { h with
    synchronizer := ⟨by simp [hports, hdraw], hc1, by simp [State.dataCapture, hports, hlines, hdraw], hd1⟩
    pulses := ⟨rfl, rfl⟩
    outside := ⟨hports, by simp [hports, hlines], hscript, hobserved, by simp [hdraw], hwindow⟩ }

/-- R230: the reset column is the same for both; the buffers, which may differ, are not read in IDLE. -/
theorem LiveEq.reset : LiveEq (resetEdge s) (resetEdge t) := by
  obtain ⟨hports, hlines, hscript, hobserved, hdraw, hwindow⟩ := h.outside
  exact
  { state := rfl
    synchronizer := ⟨rfl, rfl, rfl, rfl⟩
    snapshot := ⟨rfl, rfl⟩
    pulses := ⟨rfl, rfl⟩
    outside := ⟨hports, by simp [hports, hlines], hscript, hobserved, by simp [hdraw], hwindow⟩
    cnt := nofun
    samples := nofun
    timers := nofun
    ptr := nofun
    hdr := nofun
    rows := nofun
    nibbles := nofun }

/-- IDLE needs no transient register. -/
theorem LiveEq.enterIdle (o : OutcomeCode) : LiveEq (commit o s) (commit o t) :=
  { h with
    state := rfl
    snapshot := ⟨h.snapshot.1, rfl⟩
    pulses := ⟨rfl, rfl⟩
    cnt := nofun
    samples := nofun
    timers := nofun
    ptr := nofun
    hdr := nofun
    rows := nofun
    nibbles := nofun }

theorem LiveEq.withIdent (id : Ident) : LiveEq { s with id := id } { t with id := id } :=
  { h with snapshot := ⟨rfl, h.snapshot.2⟩ }

theorem LiveEq.withTimers (win edge : Timer) :
    LiveEq { s with winMs := win, edgeMs := edge } { t with winMs := win, edgeMs := edge } :=
  { h with timers := fun _ => ⟨rfl, rfl⟩ }

theorem LiveEq.withScan (ptr : Count) (hdr : HdrCount) :
    LiveEq { s with ptr := ptr, hdr := hdr } { t with ptr := ptr, hdr := hdr } :=
  { h with ptr := fun _ => rfl, hdr := fun _ => rfl }

/-- Sampling needs the count, the samples below it and the timers. -/
theorem LiveEq.enterSampling {n : StateName} (hn : n = .waitHigh ∨ n = .waitLow ∨ n = .checkCount)
    {cnt cnt' : Count} (hcnt : cnt = cnt') {buf buf' : Memory} (hbuf : ∀ i < cnt.toNat, buf.get i = buf'.get i)
    (win edge : Timer) :
    LiveEq { s with state := n, cnt := cnt, buf := buf, winMs := win, edgeMs := edge }
      { t with state := n, cnt := cnt', buf := buf', winMs := win, edgeMs := edge } := by
  obtain rfl | rfl | rfl := hn <;> exact
  { h with
    state := rfl
    cnt := fun _ => hcnt
    samples := fun _ => hbuf
    timers := fun _ => ⟨rfl, rfl⟩
    ptr := nofun
    hdr := nofun
    rows := nofun
    nibbles := nofun }

variable (hcnt : s.cnt = t.cnt) (hbuf : ∀ i < s.cnt.toNat, s.buf.get i = t.buf.get i)
include hcnt hbuf

/-- The header scan needs the samples, the pointer and the countdown. -/
theorem LiveEq.enterHdrScan (ptr : Count) (hdr : HdrCount) :
    LiveEq { s with state := .hdrScan, ptr := ptr, hdr := hdr } { t with state := .hdrScan, ptr := ptr, hdr := hdr } :=
  { h with
    state := rfl
    cnt := fun _ => hcnt
    samples := fun _ => hbuf
    timers := nofun
    ptr := fun _ => rfl
    hdr := fun _ => rfl
    rows := nofun
    nibbles := nofun }

/-- The frame needs the samples, the pointer, the rows so far and their values. -/
theorem LiveEq.enterFrame {n : StateName} (hn : n = .row ∨ n = .final) (ptr : Count) (hdr hdr' : HdrCount)
    (row : RowCount) (colx : Nibble) {nib nib' : Accumulator}
    (hnib : ∀ j : Fin 10, 10 ≤ j.val + row.toNat → nib[j] = nib'[j]) :
    LiveEq { s with state := n, ptr := ptr, hdr := hdr, row := row, colx := colx, nib := nib }
      { t with state := n, ptr := ptr, hdr := hdr', row := row, colx := colx, nib := nib' } := by
  obtain rfl | rfl := hn <;> exact
  { h with
    state := rfl
    cnt := fun _ => hcnt
    samples := fun _ => hbuf
    timers := nofun
    ptr := fun _ => rfl
    hdr := nofun
    rows := fun _ => ⟨rfl, rfl⟩
    nibbles := fun _ => hnib }

end

/-! The actions. -/

/-- R51: an append adds the same sample to both buffers, and leaves those below it. -/
theorem get_put_eq_of_get_eq {a b : Memory} {n : Nat} (ha : a.wf = true) (hb : b.wf = true)
    (h : ∀ i < n, a.get i = b.get i) (d : Sample) : ∀ i < n + 1, (a.put n d).get i = (b.put n d).get i := by
  intro i hi
  rw [Memory.get_put _ ha, Memory.get_put _ hb]
  split_ifs with hin
  · rfl
  · exact h i (by omega)

section
variable {s t : State} (hs : Legal s) (ht : Legal t) (h : LiveEq s t)

section
include h

theorem LiveEq.timedOut_eq (hsampling : sampling s) : timedOut t = timedOut s := by
  obtain ⟨hedge, hwin⟩ := h.timers hsampling
  obtain ⟨-, -, -, -, -, hwindow⟩ := h.outside
  rw [timedOut, timedOut, hedge, hwin, hwindow]

/-- R52: a row that fits lies below `cnt`. -/
theorem LiveEq.rowOf_eq (hframe : inFrame s) (hfits : s.ptr.toNat + 5 ≤ s.cnt.toNat) : rowOf t = rowOf s := by
  have hbusy : s.state ≠ .idle := by obtain hs | hs := hframe <;> rw [hs] <;> nofun
  have hptr : s.ptr = t.ptr := h.ptr (.inr hframe)
  have hget := h.samples hbusy
  rw [rowOf, rowOf, ← hptr, hget _ (by omega), hget _ (by omega), hget _ (by omega), hget _ (by omega),
    hget _ (by omega)]

theorem LiveEq.next_idleAction :
    LiveNext (idleAction s (captureEdge s)) (idleAction t (captureEdge t)) := by
  obtain ⟨hports, -⟩ := h.outside
  obtain ⟨-, hc2, -⟩ := h.synchronizer
  rw [idleAction, idleAction, ← hports, ← hc2]
  split_ifs
  · exact .of_next (h.captured.enterIdle _)
  · exact .of_next (h.captured.enterSampling (cnt := 0#9) (.inl rfl) rfl (fun i hi => absurd hi i.not_lt_zero) _ _)
  · exact .of_next h.captured

theorem LiveEq.next_waitLowAction (hwait : s.state = .waitLow) :
    LiveNext (waitLowAction s (captureEdge s)) (waitLowAction t (captureEdge t)) := by
  have hbusy : s.state ≠ .idle := by rw [hwait]; nofun
  obtain ⟨hports, -⟩ := h.outside
  obtain ⟨-, hc2, -⟩ := h.synchronizer
  obtain ⟨hedge, hwin⟩ := h.timers (.inr hwait)
  rw [waitLowAction, waitLowAction, h.timedOut_eq (.inr hwait), ← hports, ← hc2, ← hedge, ← hwin]
  split_ifs
  · exact .of_next (h.captured.enterSampling (.inr (.inr rfl)) (h.cnt hbusy) (h.samples hbusy) _ _)
  · exact .of_next (h.captured.withTimers _ _)
  · exact .of_next (h.captured.enterSampling (.inl rfl) (h.cnt hbusy) (h.samples hbusy) _ _)

theorem LiveEq.next_checkCountAction (hcheck : s.state = .checkCount) :
    LiveNext (checkCountAction s (captureEdge s)) (checkCountAction t (captureEdge t)) := by
  have hbusy : s.state ≠ .idle := by rw [hcheck]; nofun
  rw [checkCountAction, checkCountAction, ← h.cnt hbusy]
  split_ifs
  · exact .of_next (h.captured.enterIdle _)
  · exact .of_next (h.captured.enterHdrScan (h.cnt hbusy) (h.samples hbusy) _ _)

end

section
include hs h

/-- R44 item 3: in FINAL every accumulator entry has been written in this poll. -/
theorem LiveEq.nib_eq_of_final (hfinal : s.state = .final) : s.nib = t.nib := by
  have hrow := hs.rowInFinal hfinal
  exact Vector.ext fun j hj => h.nibbles (.inr hfinal) ⟨j, hj⟩ (by omega)

end

section
include hs ht h

theorem LiveEq.next_waitHighAction (hwait : s.state = .waitHigh) :
    LiveNext (waitHighAction s (captureEdge s)) (waitHighAction t (captureEdge t)) := by
  have hbusy : s.state ≠ .idle := by rw [hwait]; nofun
  obtain ⟨(hlt : s.cnt.toNat < 256), -⟩ := hs.samplingBounds (.inl hwait)
  obtain ⟨hports, -⟩ := h.outside
  obtain ⟨-, hc2, -, hd2⟩ := h.synchronizer
  obtain ⟨hedge, hwin⟩ := h.timers (.inl hwait)
  have hplus : (Count.plus s.cnt 1).toNat = s.cnt.toNat + 1 := plus_toNat _ _ (by omega)
  have hput : ∀ i < (Count.plus s.cnt 1).toNat,
      (s.buf.put s.cnt.toNat s.d2).get i = (t.buf.put s.cnt.toNat s.d2).get i := by
    rw [hplus]
    exact get_put_eq_of_get_eq hs.bufCanonical ht.bufCanonical (h.samples hbusy) s.d2
  rw [waitHighAction, waitHighAction, h.timedOut_eq (.inl hwait), ← hports, ← hc2, ← hd2, ← hedge, ← hwin,
    ← h.cnt hbusy, Memory.bufWrite_of_lt _ hlt, Memory.bufWrite_of_lt _ hlt]
  dsimp only
  split_ifs
  · exact .of_next (h.captured.enterSampling (.inr (.inr rfl)) (h.cnt hbusy) (h.samples hbusy) _ _)
  · exact .of_next (h.captured.enterSampling (.inr (.inr rfl)) rfl hput _ _)
  · exact .of_next (h.captured.enterSampling (.inr (.inl rfl)) rfl hput _ _)
  · exact .of_next (h.captured.withTimers _ _)

theorem LiveEq.next_hdrScanAction (hscan : s.state = .hdrScan) :
    LiveNext (hdrScanAction s (captureEdge s)) (hdrScanAction t (captureEdge t)) := by
  have hbusy : s.state ≠ .idle := by rw [hscan]; nofun
  have hcnt : s.cnt = t.cnt := h.cnt hbusy
  have hptr : s.ptr = t.ptr := h.ptr (.inl hscan)
  have hhdr : s.hdr = t.hdr := h.hdr hscan
  have hbound : s.cnt.toNat ≤ 256 := hs.cntBound
  have hbound' : t.cnt.toNat ≤ 256 := ht.cntBound
  by_cases hmore : s.ptr.toNat < s.cnt.toNat
  · have hget : s.buf.get s.ptr.toNat = t.buf.get s.ptr.toNat := h.samples hbusy _ hmore
    have hdown : hdrDown s = hdrDown t := by
      obtain ⟨-, -, -, -, hdraw, -⟩ := h.outside
      rw [hdrDown, hdrDown, hhdr, hdraw]
    have hmore' : t.ptr.toNat < t.cnt.toNat := by rwa [← hptr, ← hcnt]
    rw [hdrScanAction_sample hmore (by omega), hdrScanAction_sample hmore' (by omega), ← hptr, ← hhdr, ← hget, ← hdown]
    split_ifs
    · exact .of_next (h.captured.enterFrame hcnt (h.samples hbusy) (.inl rfl) _ _ _ _ _ fun j hj =>
        absurd j.isLt (Nat.not_lt.2 hj))
    · exact .of_next (h.captured.withScan _ _)
    · exact .of_next (h.captured.withScan _ _)
  · have hend : s.cnt.toNat ≤ s.ptr.toNat := Nat.le_of_not_lt hmore
    rw [hdrScanAction, hdrScanAction, ← hcnt, ← hptr, if_pos hend, if_pos hend]
    exact .of_next (h.captured.enterIdle _)

theorem LiveEq.next_rowAction (hrow : s.state = .row) :
    LiveNext (rowAction s (captureEdge s)) (rowAction t (captureEdge t)) := by
  have hbusy : s.state ≠ .idle := by rw [hrow]; nofun
  have hcnt : s.cnt = t.cnt := h.cnt hbusy
  have hptr : s.ptr = t.ptr := h.ptr (.inr (.inl hrow))
  have hbound : s.cnt.toNat ≤ 256 := hs.cntBound
  have hbound' : t.cnt.toNat ≤ 256 := ht.cntBound
  obtain ⟨hrows, hcolx⟩ := h.rows (.inl hrow)
  by_cases hfits : s.ptr.toNat + 5 ≤ s.cnt.toNat
  · have hfits' : t.ptr.toNat + 5 ≤ t.cnt.toNat := by rwa [← hptr, ← hcnt]
    have hsame : rowOf t = rowOf s := h.rowOf_eq (.inl hrow) hfits
    cases hpar : (rowOf s).parity with
    | true =>
      rw [rowAction_odd hfits (by omega) hpar, rowAction_odd hfits' (by omega) (hsame ▸ hpar)]
      exact .of_next (h.captured.enterIdle OutcomeCode.rowParity)
    | false =>
      rw [rowAction_even hfits (by omega) hpar (hs.rowInRow hrow),
        rowAction_even hfits' (by omega) (hsame ▸ hpar) (hrows ▸ hs.rowInRow hrow), hsame, ← hrows, ← hcolx, ← hptr,
        ← h.state, hrow]
      refine .of_next (h.captured.enterFrame hcnt (h.samples hbusy) ?_ _ _ _ _ _ ?_)
      · split_ifs <;> simp
      · intro j hj
        rw [nibWrite_get, nibWrite_get]
        split_ifs with hlast
        · rfl
        · refine h.nibbles (.inl hrow) j ?_
          have hle : s.row.toNat ≤ 9 := hs.rowInRow hrow
          have hne : j.val ≠ 9 - s.row.toNat := fun heq => hlast (Fin.ext (by simp [Fin.ofNat]; omega))
          rw [rowNext_toNat _ (by omega)] at hj
          omega
  · rw [rowAction_short hfits, rowAction_short (by rwa [← hptr, ← hcnt])]
    exact .of_next (h.captured.enterIdle OutcomeCode.noFrame)

theorem LiveEq.next_finalAction (hfinal : s.state = .final) :
    LiveNext (finalAction s (captureEdge s)) (finalAction t (captureEdge t)) := by
  have hbusy : s.state ≠ .idle := by rw [hfinal]; nofun
  have hcnt : s.cnt = t.cnt := h.cnt hbusy
  have hptr : s.ptr = t.ptr := h.ptr (.inr (.inr hfinal))
  have hbound : s.cnt.toNat ≤ 256 := hs.cntBound
  have hbound' : t.cnt.toNat ≤ 256 := ht.cntBound
  obtain ⟨-, hcolx⟩ := h.rows (.inr hfinal)
  by_cases hfits : s.ptr.toNat + 5 ≤ s.cnt.toNat
  · have hfits' : t.ptr.toNat + 5 ≤ t.cnt.toNat := by rwa [← hptr, ← hcnt]
    have hsame : rowOf t = rowOf s := h.rowOf_eq (.inr hfinal) hfits
    cases hstop : (rowOf s).s4 with
    | true =>
      rw [finalAction_stop hfits (by omega) hstop, finalAction_stop hfits' (by omega) (hsame ▸ hstop)]
      exact .of_next (h.captured.enterIdle OutcomeCode.stopBit)
    | false =>
      by_cases heven : s.colx ^^^ (rowOf s).value = 0#4
      · rw [finalAction_success hfits (by omega) hstop heven,
          finalAction_success hfits' (by omega) (hsame ▸ hstop) (by rwa [hsame, ← hcolx]),
          ← h.nib_eq_of_final hs hfinal]
        exact .of_next ((h.captured.withIdent (assemble s.nib)).enterIdle OutcomeCode.success)
      · rw [finalAction_odd hfits (by omega) hstop heven,
          finalAction_odd hfits' (by omega) (hsame ▸ hstop) (by rwa [hsame, ← hcolx])]
        exact .of_next (h.captured.enterIdle OutcomeCode.colParity)
  · rw [finalAction_short hfits, finalAction_short (by rwa [← hptr, ← hcnt])]
    exact .of_next (h.captured.enterIdle OutcomeCode.noFrame)

theorem LiveEq.next_stateAction :
    LiveNext (stateAction s.state s (captureEdge s)) (stateAction t.state t (captureEdge t)) := by
  rw [← h.state]
  cases hn : s.state with
  | idle => exact h.next_idleAction
  | waitHigh => exact h.next_waitHighAction hs ht hn
  | waitLow => exact h.next_waitLowAction hn
  | checkCount => exact h.next_checkCountAction hn
  | hdrScan => exact h.next_hdrScanAction hs ht hn
  | row => exact h.next_rowAction hs ht hn
  | final => exact h.next_finalAction hs ht hn
  | unused7 => exact absurd hn hs.stateUsed

theorem LiveEq.next_cycleWith (p : Inputs) : LiveNext (cycleWith p s) (cycleWith p t) := by
  cases hrst : p.rst with
  | true =>
    rw [show cycleWith p s = _ from clockEdge_rst _ (s.takeInputs p) hrst,
      show cycleWith p t = _ from clockEdge_rst _ (t.takeInputs p) hrst]
    exact .of_next (h.withInputs p).reset
  | false =>
    rw [cycleWith_run hrst, cycleWith_run hrst]
    exact (h.withInputs p).next_stateAction (hs.withInputs p) (ht.withInputs p)

theorem LiveEq.next_observation (o : Observation) : LiveNext (exec o.instr s) (exec o.instr t) := by
  obtain ⟨hid, houtcome⟩ := h.snapshot
  obtain ⟨hdone, htag⟩ := h.pulses
  cases o with
  | outcome =>
    have hnamed {r : State} (hr : Legal r) : exec .readOutcome r = .next (r.see (.outcome r.outcome)) :=
      if_pos (decide_eq_true hr.outcomeNamed)
    rw [Observation.instr, hnamed hs, hnamed ht, houtcome]
    exact .of_next (h.see _)
  | ident =>
    show LiveNext (.next (s.see (.ident (idO s)))) (.next (t.see (.ident (idO t))))
    rw [idO_congr hid]
    exact .of_next (h.see _)
  | idByte k =>
    have hread (r : State) : exec (Observation.idByte k).instr r =
        .next (State.see { r with ports := { r.ports with idIdx := BitVec.ofNat 8 k.toNat } }
          (.idByte (identByte r.id (BitVec.ofNat 8 k.toNat).toNat))) := rfl
    have hbyte : identByte s.id (BitVec.ofNat 8 k.toNat).toNat = identByte t.id (BitVec.ofNat 8 k.toNat).toNat := by
      rw [hid]
    rw [hread, hread, hbyte]
    exact .of_next ((h.withIndex _).see _)
  | tag =>
    show LiveNext (.next (s.see (.tag s.tagR))) (.next (t.see (.tag t.tagR)))
    rw [htag]
    exact .of_next (h.see _)
  | done =>
    show LiveNext (.next (s.see (.done s.doneR (busyO s)))) (.next (t.see (.done t.doneR (busyO t))))
    rw [hdone, busyO, h.state, ← busyO]
    exact .of_next (h.see _)

end
end

/-- Settles O7: a step is a cycle with the same inputs, or the same observation, for both states. -/
theorem leftoverRegistersNeverMatter : Obligations.LeftoverRegistersNeverMatter := by
  intro s t hs ht h
  show LiveNext (step s) (step t)
  obtain ⟨-, -, hscript, -, hdraw, -⟩ := h.outside
  match hsame : s.script with
  | [] =>
    rw [step_of_empty hsame, step_of_empty (hscript ▸ hsame), hdraw]
    exact h.next_cycleWith hs ht _
  | .drive p :: rest =>
    rw [step_of_drive hsame, step_of_drive (hscript ▸ hsame)]
    exact (h.withScript rest).next_cycleWith (hs.withScript rest) (ht.withScript rest) p
  | .observe o :: rest =>
    rw [step_of_observe hsame, step_of_observe (hscript ▸ hsame)]
    exact (h.withScript rest).next_observation (hs.withScript rest) (ht.withScript rest) o

end Sys2Proof.Machine

namespace Sys2Proof.Machine

/-! SUPPORT. The decode of R251 on lists that are written out: where a row stands, the rule takes it; where nine set
samples stand after clear ones, the header ends. -/

/-- The five samples of a row, as a list, the earliest first. -/
def RowSamples.toList (r : RowSamples) : List Sample := [r.s0, r.s1, r.s2, r.s3, r.s4]

@[simp] theorem RowSamples.length_toList (r : RowSamples) : r.toList.length = 5 := rfl

theorem rowAt_append (pre : List Sample) (r : RowSamples) (rest : List Sample) :
    rowAt (pre ++ (r.toList ++ rest)) pre.length = r := by
  simp [rowAt, sampleAt, RowSamples.toList]

section
variable (pre : List Sample) (r : RowSamples) (rest : List Sample) (nib : Accumulator) (x : Nibble)

/-- R160: a row of even parity is taken. -/
theorem decodeRows_of_even (left : Nat) (heven : r.parity = false) :
    decodeRows (pre ++ (r.toList ++ rest)) (left + 1) pre.length nib x =
      let next := decodeRows ((pre ++ r.toList) ++ rest) left (pre ++ r.toList).length
        (nibWrite nib (Fin.ofNat 10 left) r.value) (x ^^^ r.value)
      { next with rowCycles := next.rowCycles + 1 } := by
  rw [decodeRows, if_neg (by simp), rowAt_append, heven, if_neg Bool.false_ne_true]
  simp

/-- R162: a row of odd parity ends the decode. -/
theorem decodeRows_of_odd (left : Nat) (hodd : r.parity = true) :
    decodeRows (pre ++ (r.toList ++ rest)) (left + 1) pre.length nib x = ⟨OutcomeCode.rowParity, none, 1⟩ := by
  rw [decodeRows, if_neg (by simp), rowAt_append, if_pos hodd]

/-- R180, R182: a set stop bit. -/
theorem decodeTrailing_of_stop (hstop : r.s4 = true) :
    decodeTrailing (pre ++ (r.toList ++ rest)) pre.length nib x = ⟨OutcomeCode.stopBit, none, 1⟩ := by
  rw [decodeTrailing, if_neg (by simp), rowAt_append, if_pos hstop]

/-- R183: a column that does not XOR to 0. -/
theorem decodeTrailing_of_odd (hstop : r.s4 = false) (hodd : x ^^^ r.value ≠ 0#4) :
    decodeTrailing (pre ++ (r.toList ++ rest)) pre.length nib x = ⟨OutcomeCode.colParity, none, 1⟩ := by
  rw [decodeTrailing, if_neg (by simp), rowAt_append, hstop, if_neg Bool.false_ne_true, if_pos hodd]

/-- R184: every check passes. -/
theorem decodeTrailing_of_success (hstop : r.s4 = false) (heven : x ^^^ r.value = 0#4) :
    decodeTrailing (pre ++ (r.toList ++ rest)) pre.length nib x = ⟨OutcomeCode.success, some (assemble nib), 1⟩ := by
  rw [decodeTrailing, if_neg (by simp), rowAt_append, hstop, if_neg Bool.false_ne_true, if_neg (not_not.2 heven)]

end

/-! The rows of a frame. -/

/-- The data row that carries a value (R73, R74). -/
def dataRow (v : Nibble) : RowSamples :=
  ⟨v.getLsbD 0, v.getLsbD 1, v.getLsbD 2, v.getLsbD 3, ((v.getLsbD 0 ^^ v.getLsbD 1) ^^ v.getLsbD 2) ^^ v.getLsbD 3⟩

/-- The trailing row that carries a value and a clear stop bit (R71, R72). -/
def trailingRow (v : Nibble) : RowSamples := ⟨v.getLsbD 0, v.getLsbD 1, v.getLsbD 2, v.getLsbD 3, false⟩

theorem rowBits_eq (v : Nibble) : rowBits v = (dataRow v).toList := rfl

theorem nibbleBits_stop_eq (v : Nibble) : nibbleBits v ++ [false] = (trailingRow v).toList := rfl

/-- A row whose first four samples are the bits of `v` has the value `v`. -/
theorem RowSamples.value_of_bits (v : Nibble) (last : Sample) :
    RowSamples.value ⟨v.getLsbD 0, v.getLsbD 1, v.getLsbD 2, v.getLsbD 3, last⟩ = v := by
  refine BitVec.eq_of_getLsbD_eq fun j hj => ?_
  rw [RowSamples.value_bit _ ⟨j, hj⟩]
  interval_cases j <;> rfl

@[simp] theorem dataRow_value (v : Nibble) : (dataRow v).value = v := RowSamples.value_of_bits v _

@[simp] theorem trailingRow_value (v : Nibble) : (trailingRow v).value = v := RowSamples.value_of_bits v _

@[simp] theorem dataRow_parity (v : Nibble) : (dataRow v).parity = false := by
  rw [RowSamples.parity]
  exact Bool.xor_self _

/-- The accumulator after the rows `vs`, of which the last one is followed by `left` more (R163). -/
def writeRows (left : Nat) : List Nibble → Accumulator → Accumulator
  | [], nib => nib
  | v :: vs, nib => writeRows left vs (nibWrite nib (Fin.ofNat 10 (vs.length + left)) v)

/-- R160, R251: data rows of even parity are taken one by one. -/
theorem decodeRows_dataRows (vs : List Nibble) (pre rest : List Sample) (left : Nat) (nib : Accumulator) (x : Nibble) :
    decodeRows (pre ++ (vs.flatMap rowBits ++ rest)) (vs.length + left) pre.length nib x =
      let next := decodeRows ((pre ++ vs.flatMap rowBits) ++ rest) left (pre ++ vs.flatMap rowBits).length
        (writeRows left vs nib) (vs.foldl (· ^^^ ·) x)
      { next with rowCycles := next.rowCycles + vs.length } := by
  induction vs generalizing pre nib x with
  | nil => simp [writeRows]
  | cons v vs ih =>
    rw [List.flatMap_cons, rowBits_eq, List.length_cons, Nat.add_right_comm, List.append_assoc,
      decodeRows_of_even _ _ _ _ _ _ (dataRow_parity v), ih]
    simp [writeRows, Nat.add_assoc]

/-! The header (R151). -/

/-- Clear samples, then the nine set samples of a header. -/
def headerAfter (before : Nat) : List Sample := List.replicate before false ++ List.replicate 9 true

@[simp] theorem length_headerAfter (before : Nat) : (headerAfter before).length = before + 9 := by
  simp [headerAfter]

theorem sampleAt_headerAfter (before : Nat) (tail : List Sample) {i : Nat} (hi : i < before + 9) :
    sampleAt (headerAfter before ++ tail) i = decide (before ≤ i) := by
  rw [sampleAt, List.getD_eq_getElem?_getD, List.getElem?_append_left (by simpa using hi), headerAfter,
    List.getElem?_append, List.length_replicate]
  split_ifs with hclear
  · simp [hclear]
  · rw [List.getElem?_replicate_of_lt (by omega)]
    simpa using hclear

/-- R151: the first nine set samples in a row end the header; before them a clear one stands in every window of nine. -/
theorem headerEnd_headerAfter (before : Nat) (tail : List Sample) :
    headerEnd (headerAfter before ++ tail) = some (before + 9) := by
  rw [headerEnd, List.find?_range_eq_some]
  refine ⟨?_, by simp, fun e he => ?_⟩
  · rw [headerEndsAt, Bool.and_eq_true, decide_eq_true_iff, List.all_eq_true]
    refine ⟨Nat.le_add_left _ _, fun j hj => ?_⟩
    rw [List.mem_range] at hj
    rw [sampleAt_headerAfter before tail (by simpa using hj)]
    simp
  · rw [Bool.not_eq_true', headerEndsAt, Bool.and_eq_false_iff, decide_eq_false_iff_not, List.all_eq_false]
    by_cases h9 : 9 ≤ e
    · refine .inr ⟨0, by simp, ?_⟩
      rw [sampleAt_headerAfter before tail (by simp; omega)]
      simp; omega
    · exact .inl h9

/-- R251: the decode of a list with a header is that of the rows after it. -/
theorem decodeSamples_headerAfter (before : Nat) {tail : List Sample} (hlen : 55 ≤ tail.length) :
    decodeSamples (headerAfter before ++ tail) =
      let r := decodeRows (headerAfter before ++ tail) 10 (headerAfter before).length emptyAccumulator 0#4
      (r.outcome, r.ident) := by
  rw [decodeSamples, if_neg (by simp; omega), headerEnd_headerAfter, length_headerAfter]

/-! The frame of an identifier (R78). -/

@[simp] theorem length_rowBits (v : Nibble) : (rowBits v).length = 5 := rfl

theorem length_flatMap_rowBits (vs : List Nibble) : (vs.flatMap rowBits).length = 5 * vs.length := by
  simp [Nat.mul_comm]

@[simp] theorem length_frameRows (id : Ident) : (frameRows id).length = 10 := rfl

theorem frameBits_eq (id : Ident) :
    frameBits id =
      headerAfter 0 ++ ((frameRows id).flatMap rowBits ++ (trailingRow (columnParity (frameRows id))).toList) := by
  rw [← nibbleBits_stop_eq, ← List.append_assoc]
  rfl

theorem length_frameBits (id : Ident) : (frameBits id).length = 64 := by simp [frameBits_eq]

/-- R163, R54: the last row stands in entry 0, the one before it in entry 1, and so on. -/
theorem writeRows_get (vs : List Nibble) (hlen : vs.length ≤ 10) (nib : Accumulator) (j : Fin 10) :
    (writeRows 0 vs nib)[j] = vs.reverse[j.val]?.getD nib[j] := by
  induction vs generalizing nib with
  | nil => rfl
  | cons v vs ih =>
    rw [List.length_cons] at hlen
    have hentry : Fin.ofNat 10 (vs.length + 0) = j ↔ vs.length = j.val := by
      rw [Fin.ext_iff, Fin.val_ofNat, Nat.add_zero, Nat.mod_eq_of_lt (by omega)]
    simp only [writeRows, ih (by omega : vs.length ≤ 10), nibWrite_get, hentry, List.reverse_cons, List.getElem?_append,
      List.length_reverse]
    obtain hlt | heq | hgt := Nat.lt_trichotomy j.val vs.length
    · rw [if_pos hlt, if_neg hlt.ne']
    · simp [heq]
    · rw [if_neg hgt.ne, if_neg hgt.not_gt]
      simp [hgt.le, Nat.sub_ne_zero_of_lt hgt]

/-- R78, R189: the rows fill the accumulator with the nibbles of the identifier. -/
theorem writeRows_frameRows (id : Ident) (nib : Accumulator) : writeRows 0 (frameRows id) nib = disassemble id := by
  refine Vector.ext fun j hj => (writeRows_get (frameRows id) le_rfl nib ⟨j, hj⟩).trans ?_
  interval_cases j <;> rfl

/-- R251: after any header, the rows and the trailing row of an identifier, in eleven cycles. -/
theorem decodeRows_frame (pre : List Sample) (id : Ident) (rest : List Sample) (nib : Accumulator) :
    decodeRows (pre ++ ((frameRows id).flatMap rowBits ++
      ((trailingRow (columnParity (frameRows id))).toList ++ rest))) 10 pre.length nib 0#4 =
        ⟨OutcomeCode.success, some id, 11⟩ := by
  have hrows := decodeRows_dataRows (frameRows id) pre
    ((trailingRow (columnParity (frameRows id))).toList ++ rest) 0 nib 0#4
  have hcolumns : (frameRows id).foldl (· ^^^ ·) 0#4 ^^^ (trailingRow (columnParity (frameRows id))).value = 0#4 := by
    rw [trailingRow_value, columnParity, BitVec.xor_self]
  rw [decodeRows, decodeTrailing_of_success _ _ _ _ _ rfl hcolumns, writeRows_frameRows, assemble_disassemble] at hrows
  exact hrows

/-- Settles O55: the header of the frame is the first one, and the rows after it decode to the identifier. -/
theorem frameOfAnIdentifierDecodesToIt : Obligations.FrameOfAnIdentifierDecodesToIt := by
  intro id before rest
  have hlist : List.replicate before false ++ frameBits id ++ rest =
      headerAfter before ++ ((frameRows id).flatMap rowBits ++
        ((trailingRow (columnParity (frameRows id))).toList ++ rest)) := by
    simp [frameBits_eq, headerAfter]
  rw [hlist, decodeSamples_headerAfter before (by simp; omega), decodeRows_frame]

/-! One changed sample (R168, R182, R183). -/

theorem flipSample_append_right (a b : List Sample) (j : Nat) :
    flipSample (a ++ b) (a.length + j) = a ++ flipSample b j := by
  induction a with
  | nil => rw [List.nil_append, List.nil_append, List.length_nil, Nat.zero_add]
  | cons x a ih =>
    rw [List.length_cons, Nat.add_right_comm, List.cons_append, flipSample, List.modify_succ_cons]
    exact congrArg (x :: ·) ih

theorem flipSample_append_left (a b : List Sample) {j : Nat} (hj : j < a.length) :
    flipSample (a ++ b) j = flipSample a j ++ b := by
  induction a generalizing j with
  | nil => simp at hj
  | cons x a ih =>
    cases j with
    | zero => rfl
    | succ j => exact congrArg (x :: ·) (ih (Nat.lt_of_succ_lt_succ hj))

/-- The row with sample `j` changed. -/
def RowSamples.flip (r : RowSamples) : Fin 5 → RowSamples
  | 0 => { r with s0 := !r.s0 }
  | 1 => { r with s1 := !r.s1 }
  | 2 => { r with s2 := !r.s2 }
  | 3 => { r with s3 := !r.s3 }
  | 4 => { r with s4 := !r.s4 }

theorem RowSamples.flip_parity (r : RowSamples) (j : Fin 5) : (r.flip j).parity = !r.parity := by
  match j with
  | 0 | 1 | 2 | 3 | 4 => simp [RowSamples.flip, RowSamples.parity]

/-- R183: a changed data sample is a changed bit of the value. -/
theorem RowSamples.flip_value_ne (r : RowSamples) (j : Fin 4) : (r.flip j.castSucc).value ≠ r.value := by
  intro heq
  have hbit := congrArg (·.getLsbD j.val) heq
  simp only [RowSamples.value_bit] at hbit
  match j with
  | 0 | 1 | 2 | 3 => simp [RowSamples.flip] at hbit

theorem RowSamples.flip_stop (r : RowSamples) (j : Fin 4) : (r.flip j.castSucc).s4 = r.s4 := by
  match j with
  | 0 | 1 | 2 | 3 => rfl

/-- A change in a row between other samples is a change of that row. -/
theorem flipSample_row (pre : List Sample) (r : RowSamples) (rest : List Sample) (j : Fin 5) :
    flipSample (pre ++ (r.toList ++ rest)) (pre.length + j.val) = pre ++ ((r.flip j).toList ++ rest) := by
  have hrow : flipSample r.toList j.val = (r.flip j).toList := by
    match j with
    | 0 | 1 | 2 | 3 | 4 => rfl
  rw [flipSample_append_right, flipSample_append_left _ _ j.isLt, hrow]

/-- R160, R251: the decode of a list with a header goes on after the data rows that stand next. -/
theorem decodeSamples_dataRows (before : Nat) (vs : List Nibble) {tail : List Sample} {left : Nat}
    (hrows : vs.length + left = 10) (hlen : 5 * left + 5 ≤ tail.length) :
    decodeSamples (headerAfter before ++ (vs.flatMap rowBits ++ tail)) =
      let pre := headerAfter before ++ vs.flatMap rowBits
      let r := decodeRows (pre ++ tail) left pre.length (writeRows left vs emptyAccumulator) (columnParity vs)
      (r.outcome, r.ident) := by
  have htail : 55 ≤ (vs.flatMap rowBits ++ tail).length := by
    rw [List.length_append, length_flatMap_rowBits]
    omega
  rw [decodeSamples_headerAfter before htail, ← hrows, decodeRows_dataRows]
  rfl

section
variable (id : Ident) (rest : List Sample)

/-- R168: a changed sample of a data row ends the decode at that row. -/
theorem decodeSamples_flip_dataRow (r : Fin 10) (j : Fin 5) :
    decodeSamples (flipSample (frameBits id) (9 + 5 * r.val + j.val) ++ rest) = (OutcomeCode.rowParity, none) := by
  obtain ⟨as, v, bs, hrows, hr⟩ : ∃ as v bs, frameRows id = as ++ v :: bs ∧ as.length = r.val :=
    ⟨(frameRows id).take r, (frameRows id)[r.val], (frameRows id).drop (r + 1), by simp, by simp⟩
  have hcount : as.length + (bs.length + 1) = 10 := by
    rw [← length_frameRows id, hrows, List.length_append, List.length_cons]
  have hframe : frameBits id = (headerAfter 0 ++ as.flatMap rowBits) ++ ((dataRow v).toList ++
      (bs.flatMap rowBits ++ (trailingRow (columnParity (frameRows id))).toList)) := by
    simp [frameBits_eq, hrows, rowBits_eq]
  have hindex : 9 + 5 * r.val = (headerAfter 0 ++ as.flatMap rowBits).length := by simp [hr, Nat.mul_comm]
  have hodd : ((dataRow v).flip j).parity = true := by rw [RowSamples.flip_parity, dataRow_parity, Bool.not_false]
  rw [hframe, hindex, flipSample_row, List.append_assoc, List.append_assoc, List.append_assoc,
    decodeSamples_dataRows 0 as hcount (by simp; omega)]
  dsimp only
  rw [decodeRows_of_odd _ _ _ _ _ _ hodd]

/-- A changed sample of the trailing row leaves the rows as they are, and the trailing row decides. -/
theorem decodeSamples_flip_trailingRow (j : Fin 5) :
    decodeSamples (flipSample (frameBits id) (59 + j.val) ++ rest) =
      let pre := headerAfter 0 ++ (frameRows id).flatMap rowBits
      let row := (trailingRow (columnParity (frameRows id))).flip j
      let r := decodeTrailing (pre ++ (row.toList ++ rest)) pre.length
        (writeRows 0 (frameRows id) emptyAccumulator) (columnParity (frameRows id))
      (r.outcome, r.ident) := by
  have hframe : frameBits id = (headerAfter 0 ++ (frameRows id).flatMap rowBits) ++
      ((trailingRow (columnParity (frameRows id))).toList ++ []) := by
    simp [frameBits_eq]
  have hindex : 59 = (headerAfter 0 ++ (frameRows id).flatMap rowBits).length := by simp
  rw [hframe, hindex, flipSample_row, List.append_nil, List.append_assoc, List.append_assoc,
    decodeSamples_dataRows 0 (frameRows id) (left := 0) rfl (by simp)]
  rfl

end

/-- Settles O56: a row has odd parity, a column does not XOR to 0, or the stop bit is set, as the position says. -/
theorem changedDataParityOrStopSampleIsDetected : Obligations.ChangedDataParityOrStopSampleIsDetected := by
  intro id rest i
  refine ⟨fun hlow hhigh => ?_, fun hlow hhigh => ?_, fun hi => ?_⟩
  · have hi : i = 9 + 5 * ((i - 9) / 5) + (i - 9) % 5 := by omega
    rw [hi]
    exact decodeSamples_flip_dataRow id rest ⟨(i - 9) / 5, by omega⟩ ⟨(i - 9) % 5, by omega⟩
  · obtain ⟨j, rfl⟩ : ∃ j : Fin 4, i = 59 + j.castSucc.val := ⟨⟨i - 59, by omega⟩, by simp; omega⟩
    have hodd : columnParity (frameRows id) ^^^
        ((trailingRow (columnParity (frameRows id))).flip j.castSucc).value ≠ 0#4 := by
      have hne := (trailingRow (columnParity (frameRows id))).flip_value_ne j
      rw [trailingRow_value] at hne
      exact fun heq => hne (BitVec.xor_eq_zero_iff.1 heq).symm
    rw [decodeSamples_flip_trailingRow]
    dsimp only
    rw [decodeTrailing_of_odd _ _ _ _ _ (RowSamples.flip_stop _ j) hodd]
  · rw [hi]
    refine (decodeSamples_flip_trailingRow id rest 4).trans ?_
    dsimp only
    rw [decodeTrailing_of_stop _ _ _ _ _ rfl]

/-! The cycles after sampling (R250). -/

/-- A row cycle but the last takes five samples, and there is a sample for each of them. -/
theorem decodeRows_rowCycles_le (l : List Sample) (left : Nat) {i : Nat} (hi : i ≤ l.length) (nib : Accumulator)
    (x : Nibble) : i + (decodeRows l left i nib x).rowCycles ≤ l.length + 1 := by
  induction left generalizing i nib x with
  | zero =>
    rw [decodeRows, decodeTrailing]
    split_ifs <;> exact Nat.add_le_add_right hi 1
  | succ left ih =>
    rw [decodeRows]
    split_ifs with hshort
    · exact Nat.add_le_add_right hi 1
    · exact Nat.add_le_add_right hi 1
    · have hrest := ih (Nat.le_of_not_lt hshort) (nibWrite nib (Fin.ofNat 10 left) (rowAt l i).value)
        (x ^^^ (rowAt l i).value)
      dsimp only
      omega

/-- R151: the header ends within the samples. -/
theorem headerEnd_le {l : List Sample} {e : Nat} (h : headerEnd l = some e) : e ≤ l.length := by
  rw [headerEnd, List.find?_range_eq_some, List.mem_range] at h
  obtain ⟨-, hlt, -⟩ := h
  exact Nat.le_of_lt_succ hlt

/-- Settles O54: the longest ways are a scan with no header and a header whose rows use up the samples. -/
theorem postSamplingTakesAtMostTwoMoreCyclesThanSamples :
    Obligations.PostSamplingTakesAtMostTwoMoreCyclesThanSamples := by
  intro l
  rw [postCycles]
  split_ifs
  · omega
  · cases he : headerEnd l with
    | none => exact (Nat.add_comm 1 _).le
    | some e =>
      have hrows := decodeRows_rowCycles_le l Config.nRows (headerEnd_le he) emptyAccumulator 0#4
      dsimp only
      omega

end Sys2Proof.Machine

namespace Sys2Proof.Machine

/-! The host's operations and reads, the accumulator, and the stops of states that no run reaches. -/

/-- Settles O2: the outputs of the reset state read its reset column. -/
theorem resetStateShowsNoPollAndNoTag : Obligations.ResetStateShowsNoPollAndNoTag :=
  ⟨rfl, rfl, rfl, rfl, idO_resetEdge State.reset, identByte_resetEdge State.reset⟩

/-- Settles O30, by the law of a write. -/
theorem accumulatorFillsBackToFront : Obligations.AccumulatorFillsBackToFront := by
  intro nib r v j hr
  have hentry : Fin.ofNat 10 (9 - r) = j ↔ j.val = 9 - r := by
    rw [Fin.ext_iff, Fin.val_ofNat, Nat.mod_eq_of_lt (by omega), eq_comm]
  simp only [nibWrite_get, hentry]

/-- Settles O35: with the host's inputs driven it is an IDLE edge. -/
theorem pollStartsOneAttempt : Obligations.PollStartsOneAttempt := by
  intro s idx _
  obtain ⟨-, hactive, hinactive⟩ := idleChecksActivityAndStartsSampling (s.drive false true idx) rfl
  exact ⟨hactive rfl, hinactive rfl⟩

/-- Settles O37: the named codes are those up to 5. -/
theorem readOutcomeGivesTheLastOutcome : Obligations.ReadOutcomeGivesTheLastOutcome := by
  intro s
  refine ⟨fun hnamed => if_pos (decide_eq_true hnamed), fun hreserved => if_neg fun hnamed => ?_⟩
  exact absurd (of_decide_eq_true hnamed) (Nat.not_le.2 hreserved)

/-- Settles O38: the value is `id_o`. -/
theorem readIdGivesTheWholeIdentifier : Obligations.ReadIdGivesTheWholeIdentifier :=
  fun s => ⟨idO s, rfl, idO_byte s⟩

/-- Settles O40. -/
theorem eventReadsGiveThePulses : Obligations.EventReadsGiveThePulses := fun _ => ⟨rfl, rfl⟩

/-- Settles O45: the per-edge timer is at or below the window timer, so its bound of 2 comes no earlier. -/
theorem edgeTimeoutNeverComesFirst : Obligations.EdgeTimeoutNeverComesFirst := by
  intro s h hsampling hbudget
  obtain ⟨-, hedge⟩ := h.samplingBounds hsampling
  rw [timedOut_iff]
  omega

/-- Settles O32: a missing entry is read or written in the one branch that the tests before it leave. -/
theorem missingEntriesStopTheModel : Obligations.MissingEntriesStopTheModel := by
  intro s hrst
  refine ⟨fun inTime hc2 hcnt => ?_, fun hmore hptr => ?_, fun hmore hptr hset hzero => ?_, fun hfits hptr => ?_,
    fun hfits hptr heven hrow => ?_⟩
  · rw [show exec .waitHigh s = _ from exec_stateRow_run .waitHigh hrst, stateAction]
    simp [waitHighAction, inTime, hc2, Memory.bufWrite_of_ge _ hcnt]
  · rw [show exec .hdrScan s = _ from exec_stateRow_run .hdrScan hrst, stateAction, hdrScanAction,
      if_neg (Nat.not_le.2 hmore), Memory.bufRead_of_ge _ hptr]
  · refine ⟨hdrDown s, ?_⟩
    rw [show exec .hdrScan s = _ from exec_stateRow_run .hdrScan hrst, stateAction, hdrScanAction_sample hmore hptr,
      if_neg fun hlast => by simp [hzero] at hlast, if_pos hset]
    rfl
  · rw [show exec .row s = _ from exec_stateRow_run .row hrst, exec_final_run hrst, stateAction, rowAction, finalAction,
      if_neg (Nat.not_lt.2 hfits), if_neg (Nat.not_lt.2 hfits), readRow_of_ge _ hptr]
    exact ⟨rfl, rfl⟩
  · rw [show exec .row s = _ from exec_stateRow_run .row hrst, stateAction, rowAction, if_neg (Nat.not_lt.2 hfits),
      readRow_ptr hptr, nibIndex_of_gt _ hrow]
    exact if_neg (Bool.eq_false_iff.1 heven)

/-! The hex string of R107. -/

theorem length_hexFull (order : HexByteOrder) (id : Ident) : (hexFull order id).length = 10 := by
  cases order <;> rfl

/-- The digits of byte `k` of the order, high nibble first. -/
theorem hexFull_digits (order : HexByteOrder) (id : Ident) (k b : Fin 5) (hb : order.indices[k.val]? = some b) :
    (hexFull order id)[2 * k.val]? = some (hexDigit (highNibble id[b])) ∧
      (hexFull order id)[2 * k.val + 1]? = some (hexDigit (lowNibble id[b])) := by
  cases order <;> match k with
  | 0 | 1 | 2 | 3 | 4 => cases hb; exact ⟨rfl, rfl⟩

/-- Settles O60: the string is the full one cut off at a length, with one character added. -/
theorem hexStringIsTenDigitsTruncated : Obligations.HexStringIsTenDigitsTruncated := by
  intro order counts id maxLen
  rw [identifierHex]
  generalize (if counts then maxLen - 1 else maxLen) = limit
  have htake : ((hexFull order id).take limit).length = min 10 limit := by
    rw [List.length_take, length_hexFull, min_comm]
  refine ⟨length_hexFull order id, hexFull_digits order id, fun j hj => ?_, ?_, List.getLast?_concat⟩
  · rw [List.getElem?_append_left (htake.symm ▸ hj), List.getElem?_take_of_lt (lt_min_iff.1 hj).2]
  · rw [List.length_append, htake, List.length_singleton]

end Sys2Proof.Machine

namespace Sys2Proof.Machine

/-! SUPPORT. Sampling, cycle by cycle (R125, R127): what each of the four things a sampling cycle can do answers, and
from that the end of sampling by ticks (R250), the hang without them (R244), and the samples that driven bits become. -/

section
variable {p : Inputs} {s : State} (hrst : p.rst = false)
include hrst

/-- R124: a timeout ends sampling, whatever the clock. -/
theorem cycleWith_timeout (hs : sampling s) (late : timedOut s = true) :
    cycleWith p s = .next { captureEdge (s.takeInputs p) with
      winMs := tickInc p.msTick s.winMs, edgeMs := tickInc p.msTick s.edgeMs, state := .checkCount } := by
  rw [cycleWith_run hrst]
  obtain hs | hs := hs <;> rw [hs, stateAction]
  · simp [waitHighAction, late]
  · simp [waitLowAction, late]

variable (inTime : timedOut s = false)
include inTime

/-- R125, R127: with the clock at the level that the state does not wait for, only the timers move. -/
theorem cycleWith_wait (hwait : s.state = .waitHigh ∧ s.c2 = false ∨ s.state = .waitLow ∧ s.c2 = true) :
    cycleWith p s = .next { captureEdge (s.takeInputs p) with
      winMs := tickInc p.msTick s.winMs, edgeMs := tickInc p.msTick s.edgeMs } := by
  rw [cycleWith_run hrst]
  obtain ⟨hs, hc2⟩ | ⟨hs, hc2⟩ := hwait <;> rw [hs, stateAction]
  · simp [waitHighAction, inTime, hc2]
  · simp [waitLowAction, inTime, hc2]

/-- R127: the return to the inactive level. -/
theorem cycleWith_return (hs : s.state = .waitLow) (hc2 : s.c2 = false) :
    cycleWith p s = .next { captureEdge (s.takeInputs p) with
      winMs := tickInc p.msTick s.winMs, edgeMs := 0#8, state := .waitHigh } := by
  rw [cycleWith_run hrst, hs, stateAction]
  simp [waitLowAction, inTime, hc2]

/-- R125: a sample that is not the last one. -/
theorem cycleWith_sample (hs : s.state = .waitHigh) (hc2 : s.c2 = true) (hcnt : s.cnt.toNat < 255) :
    cycleWith p s = .next { captureEdge (s.takeInputs p) with
      winMs := tickInc p.msTick s.winMs, edgeMs := 0#8
      buf := s.buf.put s.cnt.toNat s.d2, cnt := Count.plus s.cnt 1, state := .waitLow } := by
  rw [cycleWith_run hrst, hs, stateAction,
    waitHighAction_append (old := s.takeInputs p) inTime hc2 (by rw [takeInputs_cnt]; omega),
    if_neg (by rw [takeInputs_cnt]; omega)]
  rfl

/-- R125, D11: the sample that fills the buffer. -/
theorem cycleWith_lastSample (hs : s.state = .waitHigh) (hc2 : s.c2 = true) (hcnt : s.cnt.toNat = 255) :
    cycleWith p s = .next { captureEdge (s.takeInputs p) with
      winMs := tickInc p.msTick s.winMs, edgeMs := tickInc p.msTick s.edgeMs
      buf := s.buf.put s.cnt.toNat s.d2, cnt := Count.plus s.cnt 1, state := .checkCount } := by
  rw [cycleWith_run hrst, hs, stateAction,
    waitHighAction_append (old := s.takeInputs p) inTime hc2 (by rw [takeInputs_cnt]; omega),
    if_pos (by rw [takeInputs_cnt]; omega)]
  rfl

end

/-! Ticks end sampling. -/

theorem cycleWith_windowMs {p : Inputs} {s t : State} (hrst : p.rst = false) (h : cycleWith p s = .next t) :
    t.windowMs = s.windowMs := (cycleWith_keepsCapture hrst h).windowMs

/-- R128: a sampling cycle goes on sampling or ends in CHECK_COUNT. -/
theorem SamplingMove.goesOn_or_ends {tick : Bool} {s t : State} (hs : sampling s) (h : SamplingMove tick s t) :
    sampling t ∨ t.state = .checkCount := by
  cases h with
  | timeout _ control | fill _ _ control => exact .inr control
  | wait control _ => exact .inl (by rwa [sampling, control])
  | restart goesOn _ _ => exact .inl goesOn

/-- R250: the window timer counts the ticks, so with enough of them to come it passes the budget. -/
theorem exists_checkCount_of_ticks (ps : List Inputs) (p : Inputs) {s : State} (h : Legal s) (hs : sampling s)
    (hbudget : s.windowMs ≤ 254) (hrst : noReset (ps ++ [p]))
    (hticks : s.windowMs < s.winMs.toNat + ps.countP (fun q => q.msTick)) :
    ∃ k t, k ≤ ps.length + 1 ∧ runCycles ((ps ++ [p]).take k) s = .next t ∧ t.state = .checkCount := by
  induction ps generalizing s with
  | nil =>
    have late : timedOut s = true := (timedOut_iff s).2 (.inl hticks)
    have hnext := cycleWith_timeout (hrst p (List.mem_singleton_self p)) hs late
    exact ⟨1, _, le_rfl, runCycles_cons_of_next hnext [], rfl⟩
  | cons q ps ih =>
    obtain ⟨hrstq, hrstps⟩ := List.forall_mem_cons.1 hrst
    obtain ⟨t, ht⟩ := h.cycleWith_answers q
    obtain ⟨hwin, hmove⟩ := cycleWith_sampling hrstq hs ht
    obtain hgoes | hends := hmove.goesOn_or_ends hs
    · have hwindow : t.windowMs = s.windowMs := cycleWith_windowMs hrstq ht
      have hcount : t.windowMs < t.winMs.toNat + ps.countP (fun q => q.msTick) := by
        rw [hwindow, hwin, tickInc_toNat]
        have hone : (if q.msTick = true then 1 else 0) = q.msTick.toNat := by cases q.msTick <;> rfl
        rw [List.countP_cons, hone] at hticks
        omega
      obtain ⟨k, u, hk, hrun, hcheck⟩ := ih (h.next_of_cycleWith ht) hgoes (hwindow ▸ hbudget) hrstps hcount
      exact ⟨k + 1, u, Nat.succ_le_succ hk, (runCycles_cons_of_next ht _).trans hrun, hcheck⟩
    · exact ⟨1, t, by simp, runCycles_cons_of_next ht [], hends⟩

/-- Settles O46: one tick more than the budget passes it from any value of the window timer. -/
theorem ticksEndSampling : Obligations.TicksEndSampling := by
  intro ps p s h hs hbudget hrst hticks
  exact exists_checkCount_of_ticks ps p h hs (of_decide_eq_true hbudget) hrst (by omega)

/-! A stopped clock without ticks. -/

/-- R123: without a tick a timer stays. -/
@[simp] theorem tickInc_false (x : Timer) : tickInc false x = x :=
  BitVec.eq_of_toNat_eq (by rw [tickInc_toNat]; simp; omega)

theorem capture_levelOf (b draw : Bool) : (levelOf b).capture draw = b := by cases b <;> rfl

theorem eq_levelOf_of_settled {l : LineLevel} (h : l ≠ .unsettled) (b : Bool) : l = levelOf b ∨ l = levelOf !b := by
  cases l with
  | low => cases b <;> simp [levelOf]
  | high => cases b <;> simp [levelOf]
  | unsettled => exact absurd rfl h

/-- A line that has not been at the other level shows no short phase when it is at this one (R241, log 5). -/
theorem shortPhase_of_not_other {h : LineHistory} {p : Inputs} {b : Bool} (hh : h.clk ≠ levelOf !b)
    (hp : p.rfidClk = levelOf b) : h.shortPhase p = false := by
  rw [← Bool.not_eq_true, shortPhase_iff, hp]
  rintro ⟨hsettled, -, hmoved⟩
  obtain hsame | hother := eq_levelOf_of_settled hsettled b
  · exact hmoved hsame.symm
  · exact hh hother

/-- The state waits for a clock that stands at the other level `b`, and no timeout is near. -/
structure Stalled (b : Bool) (s : State) : Prop where
  control : s.state = if b then .waitLow else .waitHigh
  clock : s.c1 = b ∧ s.c2 = b
  line : s.lines.clk ≠ levelOf !b
  inTime : timedOut s = false

theorem Stalled.next {b : Bool} {s : State} (h : Stalled b s) {p : Inputs} (hrst : p.rst = false)
    (htick : p.msTick = false) (hp : p.rfidClk = levelOf b) :
    ∃ t, cycleWith p s = .next t ∧ Stalled b t ∧ t.cnt = s.cnt ∧ t.outcome = s.outcome := by
  obtain ⟨control, ⟨hc1, hc2⟩, line, inTime⟩ := h
  have hwait : s.state = .waitHigh ∧ s.c2 = false ∨ s.state = .waitLow ∧ s.c2 = true := by
    cases b
    · exact .inl ⟨control, hc2⟩
    · exact .inr ⟨control, hc2⟩
  have hphase : s.lines.shortPhase p = false := shortPhase_of_not_other line hp
  rw [cycleWith_wait hrst inTime hwait, htick, tickInc_false, tickInc_false]
  refine ⟨_, rfl, ⟨control, ⟨?_, ?_⟩, ?_, inTime⟩, rfl, rfl⟩
  · simp [hp, capture_levelOf]
  · simp [hphase, hc1]
  · simp only [captureEdge_lines, takeInputs_ports, push_clk, hp]
    cases b <;> nofun

theorem Stalled.runCycles {b : Bool} {s : State} (h : Stalled b s) {ps : List Inputs}
    (hps : ∀ p ∈ ps, p.rst = false ∧ p.msTick = false) (hlevel : ∀ p ∈ ps, p.rfidClk = levelOf b) :
    ∃ t, runCycles ps s = .next t ∧ Stalled b t ∧ t.cnt = s.cnt ∧ t.outcome = s.outcome := by
  induction ps generalizing s with
  | nil => exact ⟨s, rfl, h, rfl, rfl⟩
  | cons p ps ih =>
    obtain ⟨⟨hrst, htick⟩, hps⟩ := List.forall_mem_cons.1 hps
    obtain ⟨hp, hlevel⟩ := List.forall_mem_cons.1 hlevel
    obtain ⟨u, hu, hstalled, hcnt, houtcome⟩ := h.next hrst htick hp
    obtain ⟨t, ht, hstalled, hcnt', houtcome'⟩ := ih hstalled hps hlevel
    exact ⟨t, (runCycles_cons_of_next hu ps).trans ht, hstalled, hcnt'.trans hcnt, houtcome'.trans houtcome⟩

/-- Settles O47: a stalled state stays one, for a clock that stays low and for one that stays high. -/
theorem stoppedClockWithoutTicksHangs : Obligations.StoppedClockWithoutTicksHangs := by
  intro ps s hps inTime
  refine ⟨fun hs hc1 hc2 hline hlevel => ?_, fun hs hc1 hc2 hline hlevel => ?_⟩
  · have hstalled : Stalled false s := ⟨hs, ⟨hc1, hc2⟩, hline, inTime⟩
    obtain ⟨t, ht, hstalled, hkeeps⟩ := hstalled.runCycles hps hlevel
    exact ⟨t, ht, hstalled.control, hkeeps⟩
  · have hstalled : Stalled true s := ⟨hs, ⟨hc1, hc2⟩, hline, inTime⟩
    obtain ⟨t, ht, hstalled, hkeeps⟩ := hstalled.runCycles hps hlevel
    exact ⟨t, ht, hstalled.control, hkeeps⟩

end Sys2Proof.Machine

namespace Sys2Proof.Machine

/-! SUPPORT. Driven bits become samples (R86, R125, R126): BIT's four cycles are two with the clock low and two with it
high, and after each of them the synchronizers and the control state stand in one known way. -/

/-! The samples, and what else a tickless sampling keeps. -/

/-- R51: the append puts one more sample at the end. -/
theorem samples_of_append {s t : State} {d : Sample} (hwf : s.buf.wf = true) (hcnt : s.cnt.toNat < 256)
    (buf : t.buf = s.buf.put s.cnt.toNat d) (cnt : t.cnt = Count.plus s.cnt 1) : t.samples = s.samples ++ [d] := by
  have hget (i : Nat) : t.buf.get i = if i = s.cnt.toNat then d else s.buf.get i := by
    rw [buf, Memory.get_put _ hwf]
  rw [State.samples, cnt, plus_toNat _ _ (by omega), List.range_succ, List.map_append, List.map_singleton, hget,
    if_pos rfl, State.samples]
  refine congrArg (· ++ [d]) (List.map_congr_left fun i hi => ?_)
  rw [hget, if_neg (List.mem_range.1 hi).ne]

/-- A poll that began with the outputs and the budget of `s` has taken the samples `l`, and its window timer is at
`win`. -/
structure Taken (s : State) (win : Timer) (l : List Sample) (u : State) : Prop where
  samples : u.samples = l
  canonical : u.buf.wf = true
  window : u.winMs = win
  budget : u.windowMs = s.windowMs
  edge : u.edgeMs.toNat ≤ 2
  outputs : u.outcome = s.outcome ∧ u.id = s.id

section
variable {s u : State} {win : Timer} {l : List Sample} (h : Taken s win l u)
include h

theorem Taken.inTime (hwin : win.toNat ≤ s.windowMs) : timedOut u = false := by
  have hedge := h.edge
  rw [← Bool.not_eq_true, timedOut_iff, h.window, h.budget]
  omega

theorem Taken.length : u.cnt.toNat = l.length := by rw [← length_samples, h.samples]

/-- Without a tick the edge timer stays within its bound. -/
theorem Taken.edge_kept {p : Inputs} (htick : p.msTick = false) : (tickInc p.msTick u.edgeMs).toNat ≤ 2 := by
  rw [htick, tickInc_false]
  exact h.edge

/-- A cycle that appends nothing keeps what is taken, and counts its tick. -/
theorem Taken.ticked (p : Inputs) (n : StateName) {edge : Timer} (hedge : edge.toNat ≤ 2) :
    Taken s (tickInc p.msTick win) l { captureEdge (u.takeInputs p) with
      winMs := tickInc p.msTick u.winMs, edgeMs := edge, state := n } :=
  { h with
    window := by rw [h.window]
    edge := hedge }

theorem Taken.kept {p : Inputs} (htick : p.msTick = false) (n : StateName) {edge : Timer} (hedge : edge.toNat ≤ 2) :
    Taken s win l { captureEdge (u.takeInputs p) with
      winMs := tickInc p.msTick u.winMs, edgeMs := edge, state := n } := by
  have hsame : tickInc p.msTick win = win := by rw [htick, tickInc_false]
  exact hsame ▸ h.ticked p n hedge

/-- A cycle that appends one sample. -/
theorem Taken.append (p : Inputs) (hlen : l.length < 256) (n : StateName) {edge : Timer} (hedge : edge.toNat ≤ 2) :
    Taken s (tickInc p.msTick win) (l ++ [u.d2]) { captureEdge (u.takeInputs p) with
      winMs := tickInc p.msTick u.winMs, edgeMs := edge
      buf := u.buf.put u.cnt.toNat u.d2, cnt := Count.plus u.cnt 1, state := n } :=
  have hcnt : u.cnt.toNat < 256 := by rw [h.length]; exact hlen
  { h with
    samples := (samples_of_append h.canonical hcnt rfl rfl).trans (by rw [h.samples])
    canonical := Memory.wf_put _ h.canonical _ hcnt _
    window := by rw [h.window]
    edge := hedge }

end

/-! The four cycles of BIT. -/

/-- The inputs of a cycle of BIT with the clock low. -/
def lowCycle (d : Sample) : Inputs := { Inputs.quiet with rfidData := levelOf d }

/-- The inputs of a cycle of BIT with the clock high. -/
def highCycle (d : Sample) : Inputs := { Inputs.quiet with rfidClk := .high, rfidData := levelOf d }

theorem bitInputs_eq (d : Sample) : bitInputs d = [lowCycle d, lowCycle d, highCycle d, highCycle d] := rfl

/-- After the first low cycle: the block still sees the clock level that it does not wait for. -/
structure LowBegun (u : State) : Prop where
  control : u.state = .waitHigh ∧ u.c2 = false ∨ u.state = .waitLow ∧ u.c2 = true
  capture : u.c1 = false
  line : u.lines.clk = .low

/-- After the second low cycle: the block sees the clock low. -/
structure LowSeen (d : Sample) (u : State) : Prop where
  control : u.state = .waitHigh ∨ u.state = .waitLow
  clock : u.c1 = false ∧ u.c2 = false
  line : u.lines.clk = .low ∧ u.lines.clkBefore = .low
  data : u.lines.data = levelOf d

/-- After the first high cycle: the rise and its data are captured. -/
structure HighBegun (d : Sample) (u : State) : Prop where
  control : u.state = .waitHigh
  clock : u.c1 = true ∧ u.c2 = false
  line : u.lines.clk = .high
  capture : u.d1 = d
  data : u.lines.data = levelOf d

/-- After the second high cycle: the block sees the clock high, and takes the sample in the next cycle. -/
structure Pending (d : Sample) (u : State) : Prop where
  control : u.state = .waitHigh
  clock : u.c1 = true ∧ u.c2 = true
  line : u.lines.clk = .high ∧ u.lines.clkBefore = .high
  data : u.d2 = d

/-- A phase that has lasted two edges is not too short (R241). -/
theorem shortPhase_of_two {h : LineHistory} (hclk : h.clkBefore = h.clk) (p : Inputs) : h.shortPhase p = false := by
  rw [← Bool.not_eq_true, shortPhase_iff]
  exact fun ⟨_, hne, _⟩ => hne hclk

/-- Data that does not move is stable (R241). -/
theorem dataStable_of_same {h : LineHistory} {p : Inputs} (hdata : p.rfidData = h.data) :
    h.dataSetup p = false ∧ h.dataHold p = false := by
  rw [← Bool.not_eq_true, ← Bool.not_eq_true, dataSetup_iff, dataHold_iff]
  exact ⟨fun hsetup => hsetup.2 hdata, fun hhold => hhold.2 hdata⟩

section
variable {s u : State} {win : Timer} {l : List Sample} {d : Sample} (htaken : Taken s win l u)
  (hwin : win.toNat ≤ s.windowMs)
include htaken hwin

theorem LowBegun.next (h : LowBegun u) (d : Sample) :
    ∃ t, cycleWith (lowCycle d) u = .next t ∧ LowSeen d t ∧ Taken s win l t := by
  obtain ⟨control, capture, line⟩ := h
  have hphase : u.lines.shortPhase (lowCycle d) = false := shortPhase_same _ _ line.symm
  rw [cycleWith_wait rfl (htaken.inTime hwin) control]
  refine ⟨_, rfl, ⟨?_, ⟨rfl, ?_⟩, ⟨rfl, line⟩, rfl⟩, htaken.kept rfl u.state (htaken.edge_kept rfl)⟩
  · exact control.imp And.left And.left
  · simp [hphase, capture]

theorem LowSeen.next (h : LowSeen d u) :
    ∃ t, cycleWith (highCycle d) u = .next t ∧ HighBegun d t ∧ Taken s win l t := by
  obtain ⟨control, ⟨hc1, hc2⟩, ⟨hclk, hbefore⟩, data⟩ := h
  have hphase : u.lines.shortPhase (highCycle d) = false := shortPhase_of_two (hbefore.trans hclk.symm) _
  obtain ⟨hsetup, hhold⟩ := dataStable_of_same (h := u.lines) (p := highCycle d) data.symm
  have hcapture : (u.takeInputs (highCycle d)).dataCapture = d :=
    (dataCapture_of_kept (u.takeInputs (highCycle d)) hsetup hhold).trans (capture_levelOf d _)
  have hsees : (captureEdge (u.takeInputs (highCycle d))).c2 = false := by simp [hphase, hc1]
  obtain hs | hs := control
  · rw [cycleWith_wait rfl (htaken.inTime hwin) (.inl ⟨hs, hc2⟩)]
    exact ⟨_, rfl, ⟨hs, ⟨rfl, hsees⟩, rfl, hcapture, rfl⟩, htaken.kept rfl u.state (htaken.edge_kept rfl)⟩
  · rw [cycleWith_return rfl (htaken.inTime hwin) hs hc2]
    exact ⟨_, rfl, ⟨rfl, ⟨rfl, hsees⟩, rfl, hcapture, rfl⟩, htaken.kept rfl .waitHigh (Nat.zero_le _)⟩

theorem HighBegun.next (h : HighBegun d u) :
    ∃ t, cycleWith (highCycle d) u = .next t ∧ Pending d t ∧ Taken s win l t := by
  obtain ⟨control, ⟨hc1, hc2⟩, line, capture, data⟩ := h
  have hphase : u.lines.shortPhase (highCycle d) = false := shortPhase_same _ _ line.symm
  obtain ⟨-, hhold⟩ := dataStable_of_same (h := u.lines) (p := highCycle d) data.symm
  rw [cycleWith_wait rfl (htaken.inTime hwin) (.inl ⟨control, hc2⟩)]
  refine ⟨_, rfl, ⟨control, ⟨rfl, ?_⟩, ⟨rfl, line⟩, ?_⟩, htaken.kept rfl u.state (htaken.edge_kept rfl)⟩
  · simp [hphase, hc1]
  · simp [hhold, capture]

/-- R125: the next low cycle, with a tick or without, takes the sample. -/
theorem Pending.next (h : Pending d u) (hlen : l.length < 255) {p : Inputs} (hrst : p.rst = false)
    (hp : p.rfidClk = .low) :
    ∃ t, cycleWith p u = .next t ∧ LowBegun t ∧ Taken s (tickInc p.msTick win) (l ++ [d]) t ∧ t.state = .waitLow ∧
      t.edgeMs = 0#8 := by
  obtain ⟨control, ⟨hc1, hc2⟩, ⟨hclk, hbefore⟩, rfl⟩ := h
  have hphase : u.lines.shortPhase p = false := shortPhase_of_two (hbefore.trans hclk.symm) p
  rw [cycleWith_sample hrst (htaken.inTime hwin) control hc2 (by rw [htaken.length]; exact hlen)]
  refine ⟨_, rfl, ⟨.inr ⟨rfl, ?_⟩, ?_, hp⟩, htaken.append p (by omega) .waitLow (Nat.zero_le _), rfl, rfl⟩
  · simp [hphase, hc1]
  · simp [hp]

/-- R125, D11: the sample that fills the buffer ends sampling. -/
theorem Pending.last (h : Pending d u) (hlen : l.length = 255) :
    ∃ t, cycleWith Inputs.quiet u = .next t ∧ Taken s win (l ++ [d]) t ∧ t.state = .checkCount := by
  obtain ⟨control, ⟨hc1, hc2⟩, -, rfl⟩ := h
  rw [cycleWith_lastSample rfl (htaken.inTime hwin) control hc2 (htaken.length.trans hlen)]
  have happend := htaken.append Inputs.quiet (by omega) .checkCount (htaken.edge_kept (p := Inputs.quiet) rfl)
  rw [show Inputs.quiet.msTick = false from rfl, tickInc_false] at happend
  exact ⟨_, rfl, happend, rfl⟩

/-- The last three cycles of a bit. -/
theorem LowBegun.rest (h : LowBegun u) (d : Sample) :
    ∃ t, runCycles [lowCycle d, highCycle d, highCycle d] u = .next t ∧ Pending d t ∧ Taken s win l t := by
  obtain ⟨v, hv, hlow, htaken⟩ := h.next htaken hwin d
  obtain ⟨w, hw, hhigh, htaken⟩ := hlow.next htaken hwin
  obtain ⟨t, ht, hpending⟩ := hhigh.next htaken hwin
  rw [runCycles_cons_of_next hv, runCycles_cons_of_next hw, runCycles_cons_of_next ht]
  exact ⟨t, rfl, hpending⟩

end

/-! Driven bits. -/

theorem runCycles_append_of_next {ps : List Inputs} {s u : State} (h : runCycles ps s = .next u) (qs : List Inputs) :
    runCycles (ps ++ qs) s = runCycles qs u := by
  induction ps generalizing s with
  | nil => cases h; rfl
  | cons p ps ih =>
    obtain ⟨v, hfirst, hrest⟩ := runCycles_cons_cases h
    rw [List.cons_append, runCycles_cons_of_next hfirst, ih hrest]

/-- The bits `l` have been driven: the block has taken all but the last one, which it takes next. -/
def Driven (s : State) (win : Timer) (l : List Sample) (u : State) : Prop :=
  ∃ init d, init ++ [d] = l ∧ Pending d u ∧ Taken s win init u

/-- The block waits for the first bit: it sees the clock low, and no too short phase stands open. -/
structure Waiting (u : State) : Prop where
  control : u.state = .waitHigh
  clock : u.c1 = false ∧ u.c2 = false
  line : u.lines.clk ≠ .high

section
variable {s u : State} {win : Timer} {l : List Sample} (hwin : win.toNat ≤ s.windowMs)
include hwin

theorem Waiting.firstBit (h : Waiting u) (htaken : Taken s win [] u) (d : Sample) :
    ∃ t, runCycles (bitInputs d) u = .next t ∧ Driven s win [d] t := by
  obtain ⟨control, ⟨hc1, hc2⟩, line⟩ := h
  have hnext := cycleWith_wait (p := lowCycle d) rfl (htaken.inTime hwin) (.inl ⟨control, hc2⟩)
  have htaken := htaken.kept (p := lowCycle d) rfl u.state (htaken.edge_kept (p := lowCycle d) rfl)
  have hphase : u.lines.shortPhase (lowCycle d) = false := shortPhase_of_not_other (b := false) line rfl
  have hsees : (captureEdge (u.takeInputs (lowCycle d))).c2 = false := by simp [hphase, hc1]
  obtain ⟨t, ht, hpending, htaken⟩ := LowBegun.rest htaken hwin ⟨.inl ⟨control, hsees⟩, rfl, rfl⟩ d
  rw [bitInputs_eq, runCycles_cons_of_next hnext]
  exact ⟨t, ht, [], d, rfl, hpending, htaken⟩

theorem Driven.nextBit (h : Driven s win l u) (hlen : l.length < 256) (d : Sample) :
    ∃ t, runCycles (bitInputs d) u = .next t ∧ Driven s win (l ++ [d]) t := by
  obtain ⟨init, last, rfl, hpending, htaken⟩ := h
  rw [List.length_append, List.length_singleton] at hlen
  obtain ⟨v, hv, hlow, htaken, -⟩ := hpending.next htaken hwin (by omega) (p := lowCycle d) rfl rfl
  rw [show (lowCycle d).msTick = false from rfl, tickInc_false] at htaken
  obtain ⟨t, ht, hpending, htaken⟩ := hlow.rest htaken hwin d
  rw [bitInputs_eq, runCycles_cons_of_next hv, ht]
  exact ⟨t, rfl, _, d, rfl, hpending, htaken⟩

theorem Driven.bits (h : Driven s win l u) (m : List Sample) (hlen : l.length + m.length ≤ 256) :
    ∃ t, runCycles (m.flatMap bitInputs) u = .next t ∧ Driven s win (l ++ m) t := by
  induction m generalizing l u with
  | nil => exact ⟨u, rfl, by rwa [List.append_nil]⟩
  | cons d m ih =>
    rw [List.length_cons] at hlen
    obtain ⟨v, hv, hdriven⟩ := h.nextBit hwin (by omega) d
    obtain ⟨t, ht, hdriven⟩ := ih hdriven (by rw [List.length_append, List.length_singleton]; omega)
    rw [List.flatMap_cons, runCycles_append_of_next hv, ht]
    exact ⟨t, rfl, by rwa [List.append_assoc] at hdriven⟩

/-- R86, R125: one to 256 bits, driven at a state that waits for the first. -/
theorem Waiting.bits (h : Waiting u) (htaken : Taken s win [] u) (hne : l ≠ []) (hlen : l.length ≤ 256) :
    ∃ t, runCycles (l.flatMap bitInputs) u = .next t ∧ Driven s win l t := by
  cases l with
  | nil => exact absurd rfl hne
  | cons d m =>
    obtain ⟨v, hv, hdriven⟩ := h.firstBit hwin htaken d
    obtain ⟨t, ht, hdriven⟩ := hdriven.bits hwin m (by rw [List.length_cons, Nat.add_comm] at hlen; exact hlen)
    rw [List.flatMap_cons, runCycles_append_of_next hv, ht]
    exact ⟨t, rfl, hdriven⟩

/-- R125, R128: the cycle after the last bit takes it, and with the 256th sample sampling ends. -/
theorem Driven.finish (h : Driven s win l u) (hlen : l.length ≤ 256) :
    ∃ t, cycleWith Inputs.quiet u = .next t ∧ Taken s win l t ∧
      t.state = if l.length = 256 then .checkCount else .waitLow := by
  obtain ⟨init, d, rfl, hpending, htaken⟩ := h
  rw [List.length_append, List.length_singleton] at hlen ⊢
  by_cases hfull : init.length = 255
  · rw [if_pos (by omega)]
    exact hpending.last htaken hwin hfull
  · rw [if_neg (by omega)]
    obtain ⟨t, ht, -, htaken, hwait, -⟩ := hpending.next htaken hwin (by omega) (p := Inputs.quiet) rfl rfl
    rw [show Inputs.quiet.msTick = false from rfl, tickInc_false] at htaken
    exact ⟨t, ht, htaken, hwait⟩

end

/-- Settles O57: from the first bit on each bit is one sample, and the cycle after the last one takes it. -/
theorem samplerTakesExactlyTheDrivenBits : Obligations.SamplerTakesExactlyTheDrivenBits := by
  intro l s hs hc1 hc2 hline hcnt hwf inTime hne hlen
  rw [← Bool.not_eq_true, timedOut_iff, not_or, Nat.not_lt, Nat.not_lt] at inTime
  obtain ⟨hwin, hedge⟩ := inTime
  have htaken : Taken s s.winMs [] s :=
    ⟨by rw [State.samples, hcnt]; rfl, hwf, rfl, rfl, hedge, rfl, rfl⟩
  have hwaiting : Waiting s := ⟨hs, ⟨hc1, hc2⟩, hline⟩
  obtain ⟨v, hv, hdriven⟩ := hwaiting.bits hwin htaken hne hlen
  obtain ⟨t, ht, htaken, hend⟩ := hdriven.finish hwin hlen
  rw [runCycles_concat_of_next hv, ht]
  exact ⟨t, rfl, htaken.samples, hend, htaken.outputs⟩

end Sys2Proof.Machine

namespace Sys2Proof.Machine

/-! SUPPORT. A whole poll of a valid frame (S3, P1): START, the frame's bits, ticks past the window, and the counted
cycles to the commit. -/

/-- R121: a poll start on a clock that is seen low. -/
theorem cycleWith_start {p : Inputs} {s : State} (hrst : p.rst = false) (hstart : p.start = true)
    (hs : s.state = .idle) (hc2 : s.c2 = false) :
    cycleWith p s = .next { captureEdge (s.takeInputs p) with
      state := .waitHigh, cnt := 0#9, winMs := 0#8, edgeMs := 0#8 } := by
  rw [cycleWith_run hrst, hs, stateAction]
  simp [idleAction, hstart, hc2]

/-- The inputs of a START cycle. -/
def startCycle : Inputs := { Inputs.quiet with start := true }

/-- The inputs of a TICK cycle. -/
def tickCycle : Inputs := { Inputs.quiet with msTick := true }

/-- START on a settled low clock: the poll waits for its first bit and has taken nothing. -/
theorem runCycles_start {s : State} (hs : s.state = .idle) (hc1 : s.c1 = false) (hc2 : s.c2 = false)
    (hline : s.lines.clk ≠ .high) (hwf : s.buf.wf = true) :
    ∃ t, cycleWith startCycle s = .next t ∧ Waiting t ∧ Taken s 0#8 [] t := by
  have hphase : s.lines.shortPhase startCycle = false := shortPhase_of_not_other (b := false) hline rfl
  have hsees : (captureEdge (s.takeInputs startCycle)).c2 = false := by simp [hphase, hc1]
  exact ⟨_, cycleWith_start rfl rfl hs hc2, ⟨rfl, ⟨rfl, hsees⟩, nofun⟩, ⟨rfl, hwf, rfl, rfl, Nat.zero_le _, rfl, rfl⟩⟩

section
variable {s u : State} {win : Timer} {l : List Sample} (htaken : Taken s win l u)
include htaken

/-- R127: the first tick after the last sample; the block still sees the clock high. -/
theorem Taken.tick_of_high (hwin : win.toNat ≤ s.windowMs) (h : LowBegun u) (hs : u.state = .waitLow)
    (hedge : u.edgeMs = 0#8) :
    ∃ t, cycleWith tickCycle u = .next t ∧ t.state = .waitLow ∧ t.c2 = false ∧ Taken s (tickInc true win) l t := by
  have hphase : u.lines.shortPhase tickCycle = false := shortPhase_same _ _ h.line.symm
  have hsees : (captureEdge (u.takeInputs tickCycle)).c2 = false := by simp [hphase, h.capture]
  exact ⟨_, cycleWith_wait rfl (htaken.inTime hwin) h.control, hs, hsees,
    htaken.ticked tickCycle u.state (by rw [hedge]; decide)⟩

/-- R127: the next tick; the block sees the clock low. -/
theorem Taken.tick_of_low (hwin : win.toNat ≤ s.windowMs) (hs : u.state = .waitLow) (hc2 : u.c2 = false) :
    ∃ t, cycleWith tickCycle u = .next t ∧ t.state = .waitHigh ∧ Taken s (tickInc true win) l t :=
  ⟨_, cycleWith_return rfl (htaken.inTime hwin) hs hc2, rfl, htaken.ticked tickCycle .waitHigh (by decide)⟩

/-- R124: once the window has passed, the next cycle ends sampling with the samples taken. -/
theorem Taken.finish (late : s.windowMs < win.toNat) (hs : sampling u) :
    ∃ t, cycleWith Inputs.quiet u = .next t ∧ t.state = .checkCount ∧ t.samples = l ∧ t.outcome = s.outcome ∧
      t.id = s.id := by
  have hlate : timedOut u = true := (timedOut_iff u).2 (.inl (by rw [htaken.window, htaken.budget]; exact late))
  exact ⟨_, cycleWith_timeout rfl hs hlate, rfl, htaken.samples, htaken.outputs⟩

end

/-- R124, R250 with a window of 2: the poll has taken its last sample with the first of three ticks; after the other two
the next cycle ends sampling. -/
theorem runCycles_ticks {s u : State} {l : List Sample} (hbudget : s.windowMs = 2) (h : LowBegun u)
    (hs : u.state = .waitLow) (hedge : u.edgeMs = 0#8) (htaken : Taken s 1#8 l u) :
    ∃ t, runCycles [tickCycle, tickCycle, Inputs.quiet] u = .next t ∧ t.state = .checkCount ∧ t.samples = l ∧
      t.outcome = s.outcome ∧ t.id = s.id := by
  obtain ⟨v, hv, hwait, hlow, htaken⟩ := htaken.tick_of_high (by rw [hbudget]; decide) h hs hedge
  obtain ⟨w, hw, hwait, htaken⟩ := htaken.tick_of_low (by rw [hbudget]; decide) hwait hlow
  obtain ⟨t, ht, hend⟩ := htaken.finish (by rw [hbudget]; decide) (.inl hwait)
  rw [runCycles_cons_of_next hv, runCycles_cons_of_next hw, runCycles_cons_of_next ht]
  exact ⟨t, rfl, hend⟩

/-- R250: the frame of an identifier takes CHECK_COUNT, nine scanned samples and eleven rows. -/
theorem postCycles_frameBits (id : Ident) : postCycles (frameBits id) = 21 := by
  have hrows := decodeRows_frame (headerAfter 0) id [] emptyAccumulator
  rw [List.append_nil, ← frameBits_eq] at hrows
  have hheader : headerEnd (frameBits id) = some 9 := by rw [frameBits_eq, headerEnd_headerAfter]
  rw [postCycles, if_neg (by rw [length_frameBits]; decide), hheader]
  exact congrArg (1 + 9 + DecodeEnd.rowCycles ·) hrows

/-- R251: the frame of an identifier decodes to it. -/
theorem decodeSamples_frameBits (id : Ident) : decodeSamples (frameBits id) = (OutcomeCode.success, some id) := by
  simpa using frameOfAnIdentifierDecodesToIt id 0 []

/-- Settles O58: after START the frame's bits are the samples, the ticks end sampling, and the samples decode to the
identifier. -/
theorem pollOfAValidFrameSucceeds : Obligations.PollOfAValidFrameSucceeds := by
  intro id s hs hc1 hc2 hline hwf hbudget
  have hwin : (0#8).toNat ≤ s.windowMs := Nat.zero_le _
  obtain ⟨u, hu, hwaiting, htaken⟩ := runCycles_start hs hc1 hc2 hline hwf
  obtain ⟨v, hv, init, d, hinit, hpending, htaken⟩ :=
    hwaiting.bits hwin htaken (l := frameBits id) (by simp [frameBits]) (by rw [length_frameBits]; decide)
  have hlen : init.length < 255 := by
    have hcount := congrArg List.length hinit
    rw [length_frameBits, List.length_append, List.length_singleton] at hcount
    omega
  obtain ⟨w, hw, hlow, htaken, hwait, hedge⟩ := hpending.next htaken hwin hlen (p := tickCycle) rfl rfl
  rw [hinit] at htaken
  obtain ⟨x, hx, hcheck, hsamples, houtcome, hid⟩ := runCycles_ticks hbudget hlow hwait hedge htaken
  have hcnt : x.cnt.toNat ≤ 256 := by
    rw [← length_samples, hsamples, length_frameBits]
    decide
  have hcommits := commitsAfter_of_checkCount hcheck hcnt (List.replicate 21 Inputs.quiet)
    (fun p hp => by rw [List.eq_of_mem_replicate hp]; rfl)
  rw [hsamples, postCycles_frameBits, decodeSamples_frameBits] at hcommits
  obtain ⟨t, ht, hidle, hdone, htOutcome, htId, htag⟩ := hcommits.2 (List.length_replicate ..)
  have hscript : { Inputs.quiet with start := true } :: (frameBits id).flatMap bitInputs ++
      List.replicate 3 { Inputs.quiet with msTick := true } ++ List.replicate 22 Inputs.quiet =
        startCycle :: ((frameBits id).flatMap bitInputs ++
          tickCycle :: ([tickCycle, tickCycle, Inputs.quiet] ++ List.replicate 21 Inputs.quiet)) := by
    rw [List.append_assoc, List.cons_append]
    rfl
  rw [hscript, runCycles_cons_of_next hu, runCycles_append_of_next hv, runCycles_cons_of_next hw,
    runCycles_append_of_next hx, ht]
  exact ⟨t, rfl, hidle, htOutcome, htId, hdone, htag⟩

end Sys2Proof.Machine
